-- ==== Sys2Proof/Word.lean ====
section
/-! DEFINITION. The words of the block: a byte of a stream, a 16-bit checksum or length, and the 32-bit
patterns of `COUNT`, `u32` and `float32` (spec/00_scope.md R7, R9). Bit 0 is the least significant bit (R9). -/

namespace Sys2Proof

/-- One byte of a stream, "a number from 0 to 255" (R76). -/
abbrev Byte := BitVec 8

/-- A 16-bit value: a checksum (`CRC_W`) or a length field (`LEN_W`), R7. -/
abbrev Half := BitVec 16

/-- A 32-bit value: `COUNT` (`CNT_W`, R8), a `u32`, or the pattern of a `float32` (R126). -/
abbrev Word := BitVec 32

end Sys2Proof
end

