-- ==== Sys2Proof/Config.lean ====
section
/-! DEFINITION. What is fixed for the block (spec/00_scope.md R7 and R8), and the values the spec leaves to the
transport (R8, R42, R43; spec/92_eei_decisions.md "Open parameters, collected"). The latter are constants without
a body: no proof can see a value of theirs, so what is proved holds whatever the transport does. -/

namespace Sys2Proof

/-- The three answers of `RxTake` (R42), as the transport chooses them. -/
inductive RxAnswer where
  | ok       -- the bytes arrive
  | timeout  -- the "fixed read timeout" elapses first
  | io       -- any other failure
deriving DecidableEq, Repr, Inhabited

/-- One draw of the transport for one `RxTake` (R42): which answer it gives, and `RX_PARTIAL`, how many bytes are
lost should the call fail. `lost` may be any number; `Machine.lostBytes` keeps it below the width of the call. -/
structure RxDraw where
  answer : RxAnswer
  lost   : Nat
deriving DecidableEq, Repr, Inhabited

/-- The two answers of `TxPut` (R43). -/
inductive TxAnswer where
  | ok  -- every byte was accepted
  | io  -- the transport failed
deriving DecidableEq, Repr, Inhabited

/-- One draw of the transport for one `TxPut` (R43): which answer it gives, and `TX_PARTIAL`, how many bytes it
had accepted should the call fail. -/
structure TxDraw where
  answer   : TxAnswer
  accepted : Nat
deriving DecidableEq, Repr, Inhabited

namespace Config

/-- `CRC_POLY`, the generator without its x^16 term (R3, R7). -/
def crcPoly : Half := 0x1021#16

/-- `CRC_INIT` (R3, R7). -/
def crcInit : Half := 0x0000#16

/-- `FRAME_OVERHEAD`: the bytes of a frame that are not payload (R7, R71). -/
def frameOverhead : Nat := 5

/-- `TRAILER_LEN`: the bytes of the trailing checksum field (R7). -/
def trailerLen : Nat := 2

/-- `MAX_PAYLOAD`: the longest payload `WR.FRAME` accepts (R8, R152). -/
def maxPayload : Nat := 65530

/-- The longest byte sequence the `data` operand port carries (R79, R106). -/
def maxData : Nat := 65535

/-- The value at which `COUNT` saturates, 2^CNT_W - 1 with CNT_W = 32 (R8, R10, R23). -/
def countMax : Nat := 4294967295

/-- The transport's answers to the calls of `RxTake` that `State.rxDraws` does not list: free (R42, U1, U2). -/
opaque rxDraw : Nat → RxDraw

/-- The transport's answers to the calls of `TxPut` that `State.txDraws` does not list: free (R43, U3). -/
opaque txDraw : Nat → TxDraw

/-- The RX stream at reset: free, "an arbitrary input" (spec/70_reset_and_hazards.md R213, U11). It may be empty, may
hold whole frames, or may begin in the middle of one. -/
opaque rxAtReset : List Byte

/-- `RX_TIMEOUT`, the transport's read timeout: open, and "no rule depends on it" (R8, R42, R197), so no
definition of the model reads it. -/
opaque rxTimeout : Nat

end Config

end Sys2Proof
end

