-- ==== Sys2Proof/Syntax.lean ====
section
/-! DEFINITION. The ten operations of the block with their operands (spec/30_encoding.md R79, R80; R15), and what
the host puts on the command port to issue one (R79: an operation code, operands beside it). -/

namespace Sys2Proof

/-- The instance select `s` (R79): 0 selects `CRC[0]`, the read side; 1 selects `CRC[1]`, the write side. -/
inductive CrcSel where
  | rx  -- s = 0, CRC[0]
  | tx  -- s = 1, CRC[1]
deriving DecidableEq, Repr

/-- The ten operations (R80), one constructor per row of the operation-code table, operands as R79 gives them. -/
inductive Instr where
  | crcInit  (sel : CrcSel)                      -- CRC.INIT s
  | crcUpd   (sel : CrcSel) (data : List Byte)   -- CRC.UPD s, data
  | crcFin   (sel : CrcSel)                      -- CRC.FIN s
  | rdU8                                         -- RD.U8
  | rdU16                                        -- RD.U16
  | rdU32                                        -- RD.U32
  | rdF32                                        -- RD.F32
  | rdBool                                       -- RD.BOOL
  | wrFrame  (cmd : Byte) (payload : List Byte)  -- WR.FRAME cmd, payload
  | endFrame (explen : Half)                     -- END.FRAME explen
deriving DecidableEq, Repr

/-- What stands on the command port when an operation is issued (R79, R80): the operation code and the four operand
ports. The code alone is encoded; operands "are not serialised". An operation reads only its own operand ports. -/
structure Command where
  code    : Byte
  data    : List Byte := []
  cmd     : Byte := 0#8
  payload : List Byte := []
  explen  : Half := 0#16
deriving DecidableEq, Repr

end Sys2Proof
end

