-- ==== Sys2Proof/WellFormed.lean ====
section
/-! DEFINITION. Which terms of `Instr` are operations of the block (spec/30_encoding.md R79): every operand's type
but one is exact, and the `data` operand of `CRC.UPD` is "0 to 65535 bytes". The `payload` of `WR.FRAME` may have
"any length": a long one is refused by the operation (R152), not by the port. -/

namespace Sys2Proof

/-- The operands lie in the ranges R79 gives them. -/
def Instr.wellFormed : Instr → Bool
  | .crcInit _    => true
  | .crcUpd _ d   => decide (d.length ≤ Config.maxData)
  | .crcFin _     => true
  | .rdU8         => true
  | .rdU16        => true
  | .rdU32        => true
  | .rdF32        => true
  | .rdBool       => true
  | .wrFrame _ _  => true
  | .endFrame _   => true

end Sys2Proof
end

