-- ==== Sys2Proof/Decode.lean ====
section
/-! DEFINITION. The operation-code table (spec/30_encoding.md R80), the decoder of the command port, total and
rejecting by name, and after it the encoder, both written from R80's rows. An operation code is one byte and the
operands are numbers beside it (R79, R81), so a command is decoded whole. -/

namespace Sys2Proof

/-- One row of R80: a code `c` selects it when `c and mask = match`. -/
structure OpRow where
  mnemonic : String
  pattern  : Byte
  mask     : Byte
deriving DecidableEq, Repr

/-- The ten rows of R80, in its order. -/
def opRows : List OpRow :=
  [⟨"CRC.INIT", 0x10#8, 0xFE#8⟩, ⟨"CRC.UPD", 0x12#8, 0xFE#8⟩, ⟨"CRC.FIN", 0x14#8, 0xFE#8⟩,
   ⟨"RD.U8", 0x20#8, 0xFF#8⟩, ⟨"RD.U16", 0x21#8, 0xFF#8⟩, ⟨"RD.U32", 0x22#8, 0xFF#8⟩,
   ⟨"RD.F32", 0x23#8, 0xFF#8⟩, ⟨"RD.BOOL", 0x24#8, 0xFF#8⟩,
   ⟨"WR.FRAME", 0x30#8, 0xFF#8⟩, ⟨"END.FRAME", 0x31#8, 0xFF#8⟩]

/-- A code selects a row: `c and mask = match` (R80). -/
def OpRow.selects (r : OpRow) (c : Byte) : Bool := c &&& r.mask == r.pattern

/-- A code is reserved when it selects no row (R83). -/
def reservedCode (c : Byte) : Bool := opRows.all fun r => !r.selects c

/-- The mnemonic of an operation, as R80 and the table spell it. -/
def Instr.mnemonic : Instr → String
  | .crcInit _    => "CRC.INIT"
  | .crcUpd _ _   => "CRC.UPD"
  | .crcFin _     => "CRC.FIN"
  | .rdU8         => "RD.U8"
  | .rdU16        => "RD.U16"
  | .rdU32        => "RD.U32"
  | .rdF32        => "RD.F32"
  | .rdBool       => "RD.BOOL"
  | .wrFrame _ _  => "WR.FRAME"
  | .endFrame _   => "END.FRAME"

/-- The instance that bit 0 of a checksum-family code selects (R79, R80). -/
def CrcSel.ofBit (b : Bool) : CrcSel := if b then .tx else .rx

/-- Why a command is no operation. -/
inductive DecodeError where
  /-- The code matches no row of R80 (R83). -/
  | reservedCode (code : Byte)
  /-- `CRC.UPD` with more `data` bytes than its operand holds (R79: "0 to 65535 bytes"). -/
  | dataTooLong (n : Nat)
deriving DecidableEq, Repr

/-- What the decoder answers: an operation, or the reason there is none. -/
inductive Decoded where
  | instr (i : Instr)
  | error (e : DecodeError)
deriving DecidableEq, Repr

/-- The decoder: total on any command (R80, R83). -/
def decode (c : Command) : Decoded :=
  let sel := CrcSel.ofBit (c.code.getLsbD 0)
  if c.code &&& 0xFE#8 = 0x10#8 then .instr (.crcInit sel)
  else if c.code &&& 0xFE#8 = 0x12#8 then
    if c.data.length ≤ Config.maxData then .instr (.crcUpd sel c.data)
    else .error (.dataTooLong c.data.length)
  else if c.code &&& 0xFE#8 = 0x14#8 then .instr (.crcFin sel)
  else if c.code = 0x20#8 then .instr .rdU8
  else if c.code = 0x21#8 then .instr .rdU16
  else if c.code = 0x22#8 then .instr .rdU32
  else if c.code = 0x23#8 then .instr .rdF32
  else if c.code = 0x24#8 then .instr .rdBool
  else if c.code = 0x30#8 then .instr (.wrFrame c.cmd c.payload)
  else if c.code = 0x31#8 then .instr (.endFrame c.explen)
  else .error (.reservedCode c.code)

/-- The value of `s` in an operation code (R79). -/
def CrcSel.bit : CrcSel → Byte
  | .rx => 0#8
  | .tx => 1#8

/-- The encoder: the command that issues an operation, its code from R80, the operand ports it does not read at
zero or empty. -/
def encode : Instr → Command
  | .crcInit s    => { code := 0x10#8 ||| s.bit }
  | .crcUpd s d   => { code := 0x12#8 ||| s.bit, data := d }
  | .crcFin s     => { code := 0x14#8 ||| s.bit }
  | .rdU8         => { code := 0x20#8 }
  | .rdU16        => { code := 0x21#8 }
  | .rdU32        => { code := 0x22#8 }
  | .rdF32        => { code := 0x23#8 }
  | .rdBool       => { code := 0x24#8 }
  | .wrFrame c p  => { code := 0x30#8, cmd := c, payload := p }
  | .endFrame l   => { code := 0x31#8, explen := l }

/-- The command whose code is the low byte of a table word, every operand port zero or empty: the operands have no
bits in the table (R79). -/
def Command.ofWord (nbits w : Nat) : Command := { code := BitVec.ofNat 8 (w % 2 ^ nbits) }

/-- The operation the decoder reads from a word of spec/opcode_table.json. -/
def decodeTableWord (nbits w : Nat) : Option Instr :=
  match decode (Command.ofWord nbits w) with
  | .instr i => some i
  | .error _ => none

end Sys2Proof
end

