-- ==== Sys2Proof/Machine/State.lean ====
section
/-! DEFINITION. The state of a run: the three registers of the block (spec/10_state.md R20 to R26) and, beside
them, what the environment holds of it: the two streams of the transport with its answers to come
(spec/20_memory.md R40 to R43), what the host puts on the command port (R13, R27), and the completions it has been
given (spec/60_exceptions.md R180). There is no program counter, flag, mode, control register or addressable memory
(R27 to R31, R45), so no field stands for one. -/

namespace Sys2Proof.Machine

/-- What an `Ok` completion carries: nothing, or the value an operation returns (R77, R107, R180). -/
inductive Value where
  | none             -- the operation returns no value
  | u8 (v : Byte)    -- RD.U8
  | u16 (v : Half)   -- RD.U16, and the checksum of CRC.FIN
  | u32 (v : Word)   -- RD.U32
  | f32 (v : Word)   -- RD.F32: the binary32 pattern, never interpreted (R126)
  | bool (v : Bool)  -- RD.BOOL
deriving DecidableEq, Repr

/-- The completions an operation can return, with the information each carries (R181). -/
inductive Completion where
  | ok (v : Value)                                -- code 0
  | transportTimeout                              -- code 1 (R184)
  | transportIo                                   -- code 2 (R185)
  | parseError (observed : Byte)                  -- code 3 (R186)
  | sizeMismatch (expected : Half) (consumed : Word)      -- code 4 (R187)
  | checksumMismatch (computed received : Half)   -- code 5 (R189)
  | lengthOverflow (n : Nat)                      -- code 6 (R191)
  | illegalOp (code : Byte)                       -- code 7 (R188)
deriving DecidableEq, Repr

/-- What the host does at the command port, one event a step (R13, R27, R53, R211). The last two are what the spec
excludes: a second operation, or a reset, while one is in flight (R56, R199, R211). -/
inductive HostEvent where
  | issue (c : Command)                  -- issues an operation and waits for its completion
  | reset                                -- asserts hardware reset between operations
  | issueDuring (first second : Command) -- issues `second` before `first` has completed
  | resetDuring (c : Command)            -- asserts hardware reset before `c` has completed
deriving DecidableEq, Repr

/-- The reasons a step can end in a fault: none. "Nothing in the block traps, hangs or becomes undefined" (R16):
every failure of an operation is an error completion, which is a next state (R180). -/
inductive Fault where
deriving DecidableEq, Repr

/-- The reasons the model gives a step no meaning. -/
inductive Refusal where
  /-- Raised by an arm of `exec` that has no meaning yet; safe. No arm of this model raises it. -/
  | notModelled (mnemonic : String)
  /-- Raised by `step` when the host issues an operation before the one in flight has completed: "it refuses such a
  run" (R56, R199, D26); safe. -/
  | concurrentOperations
  /-- Raised by `step` when the host resets the block while an operation is in flight: "refuses any other use" (R211,
  D29); safe. -/
  | resetInFlight
  /-- Raised by `step` on a `CRC.UPD` whose `data` has more bytes than the operand holds (R79: 0 to 65535), which
  the spec gives no meaning; safe. -/
  | operandTooLong
deriving DecidableEq, Repr

/-- The state of a run. The first three fields are "the whole architectural state of the block" (R20); the others
belong to the transport and to the host. -/
structure State where
  /-- `CRC[0]`, the read-side accumulator (R21). -/
  crcRx   : Half
  /-- `CRC[1]`, the write-side instance (R22). -/
  crcTx   : Half
  /-- `COUNT`, the per-frame byte counter, saturating (R23). -/
  count   : Word
  /-- The RX stream: the bytes not yet taken, the next one first (R40). -/
  rx      : List Byte
  /-- The TX stream: every byte the transport accepted, the first one first (R41). -/
  tx      : List Byte
  /-- The transport's answers to the coming calls of `RxTake`, an input (R42); beyond them answers are free. -/
  rxDraws : List RxDraw
  /-- How many free answers to `RxTake` have been drawn: the model's own counter, no state of the block. -/
  rxFree  : Nat
  /-- The transport's answers to the coming calls of `TxPut`, an input (R43); beyond them answers are free. -/
  txDraws : List TxDraw
  /-- How many free answers to `TxPut` have been drawn: the model's own counter, no state of the block. -/
  txFree  : Nat
  /-- What the host is yet to do at the command port, the next event first: its operation list (R13). -/
  port    : List HostEvent
  /-- The completions returned to the host so far, the earliest first (R180). The block cannot read them (R28). -/
  done    : List Completion
deriving DecidableEq, Repr

/-- The machine right after reset (R33, R210): the three registers zero. "A model takes the RX stream at reset as an
arbitrary input" (R213), so it is a free value. The logs of what has left the block and the inputs to come, which the
spec gives no value at reset, are empty (notes/assumptions/3.md). -/
def State.reset : State where
  crcRx   := 0x0000#16
  crcTx   := 0x0000#16
  count   := 0#32
  rx      := Config.rxAtReset
  tx      := []
  rxDraws := []
  rxFree  := 0
  txDraws := []
  txFree  := 0
  port    := []
  done    := []

end Sys2Proof.Machine
end

