-- ==== Sys2Proof/Machine/Flags.lean ====
section
/-! DEFINITION. The block has no flag (spec/10_state.md R28). What stands in a flag's place is here: the saturating
count and the three comparisons whose outcome a completion reports (spec/43_operation_set_laws.md R170). -/

namespace Sys2Proof.Machine

/-- `sat(COUNT + n)` (R10, R23): exact in natural numbers, then held at `2^32 - 1`, never wrapped. -/
def satAdd (c : Word) (n : Nat) : Word := BitVec.ofNat 32 (min (c.toNat + n) Config.countMax)

/-- The size check of `END.FRAME`, `COUNT + 2 = explen` in natural numbers (R157, R170). -/
def sizeMatches (count : Word) (explen : Half) : Bool :=
  count.toNat + Config.trailerLen == explen.toNat

/-- The checksum check of `END.FRAME` (R158). -/
def checksumMatches (computed received : Half) : Bool := computed == received

/-- The length check of `WR.FRAME` (R152): the payload is too long for the length field. -/
def payloadTooLong (payload : List Byte) : Bool := decide (Config.maxPayload < payload.length)

/-- The boolean check of `RD.BOOL` (R127): "accepts only 0/1; anything else is ParseError". -/
def boolCompletion (b : Byte) : Completion :=
  if b = 0x00#8 then .ok (.bool false)
  else if b = 0x01#8 then .ok (.bool true)
  else .parseError b

/-- The status code of a completion (R181). -/
def Completion.code : Completion → Nat
  | .ok _                 => 0
  | .transportTimeout     => 1
  | .transportIo          => 2
  | .parseError _         => 3
  | .sizeMismatch _ _     => 4
  | .checksumMismatch _ _ => 5
  | .lengthOverflow _     => 6
  | .illegalOp _          => 7

end Sys2Proof.Machine
end

