-- ==== Sys2Proof/Machine/Operands.lean ====
section
/-! DEFINITION. How values lie in bytes: big-endian assembly of what a read took, and the bytes of a frame that
`WR.FRAME` puts (spec/30_encoding.md R70 to R72, R77, R78; spec/20_memory.md R46; spec/00_scope.md R9). -/

namespace Sys2Proof.Machine

/-- The number a byte sequence denotes, the first byte the most significant (R9, R77), computed exactly. -/
def beNat (b : List Byte) : Nat := b.foldl (fun a x => a * 256 + x.toNat) 0

/-- `b[0]` as an 8-bit value (R77). -/
def beU8 (b : List Byte) : Byte := BitVec.ofNat 8 (beNat b)

/-- `b[0] * 2^8 + b[1]` (R77). -/
def beU16 (b : List Byte) : Half := BitVec.ofNat 16 (beNat b)

/-- `b[0] * 2^24 + b[1] * 2^16 + b[2] * 2^8 + b[3]` (R77). -/
def beU32 (b : List Byte) : Word := BitVec.ofNat 32 (beNat b)

/-- `f32_from_bits` of R126: "a retyping, not a computation"; every pattern is returned bit for bit. -/
def f32OfBits (w : Word) : Word := w

/-- The two bytes `[v[15:8], v[7:0]]` of a 16-bit value (R9). -/
def beBytes16 (v : Half) : List Byte := [v.extractLsb' 8 8, v.extractLsb' 0 8]

/-- `L = N + 5`, in natural numbers (R71, R78). -/
def frameLength (payload : List Byte) : Nat := payload.length + Config.frameOverhead

/-- The bytes of a frame that its checksum covers: length, command, payload (R72, R78). -/
def frameBody (cmd : Byte) (payload : List Byte) : List Byte :=
  beBytes16 (BitVec.ofNat 16 (frameLength payload)) ++ [cmd] ++ payload

/-- A whole frame: the body and the checksum of the body (R70, R72). -/
def frameBytes (cmd : Byte) (payload : List Byte) : List Byte :=
  frameBody cmd payload ++ beBytes16 (checksum (frameBody cmd payload))

end Sys2Proof.Machine
end

