-- ==== Sys2Proof/Machine/Ops.lean ====
section
/-! DEFINITION. The named operations over the registers, the streams and the port: the accessors of the two checksum
registers, `RxTake` and `TxPut` (spec/20_memory.md R42, R43), the completion of an operation, which is all that
"taking an exception" is in this block (spec/60_exceptions.md R180; nothing is entered, so nothing returns, R194),
and the two resets (spec/70_reset_and_hazards.md R210, R212). -/

namespace Sys2Proof.Machine

/-- `CRC[s]` (R10, R26). -/
def readCrc (sel : CrcSel) (s : State) : Half :=
  match sel with
  | .rx => s.crcRx
  | .tx => s.crcTx

/-- `CRC[s] <- v` (R10, R26). -/
def writeCrc (sel : CrcSel) (v : Half) (s : State) : State :=
  match sel with
  | .rx => { s with crcRx := v }
  | .tx => { s with crcTx := v }

/-- `COUNT <- sat(COUNT + n)` (R23, R120). -/
def countUp (n : Nat) (s : State) : State := { s with count := satAdd s.count n }

/-- The frame boundary of `END.FRAME`: `CRC[0] <- 0x0000; COUNT <- 0`, nothing else (R155, R212). -/
def boundary (s : State) : State := { s with crcRx := Config.crcInit, count := 0#32 }

/-- Hardware reset between operations: all three registers (R210), neither stream touched (R212). -/
def hwReset (s : State) : State :=
  { s with crcRx := Config.crcInit, crcTx := Config.crcInit, count := 0#32 }

/-- The operation in flight ends with completion `c`, which is returned to the host and not kept in the block
(R28, R180). -/
def complete (c : Completion) (s : State) : State := { s with done := s.done ++ [c] }

/-- `done Ok(v)` (R10). -/
def doneOk (v : Value) (s : State) : State := complete (.ok v) s

/-- `raise <Error>(info)` (R10): the block's one exception. "Trap entry" is the return of the error (R180); writes
made before it stay made, and the block accepts the next operation at once (R194). -/
def raise (e : Completion) (s : State) : State := complete e s

/-- The transport's answer to the next `RxTake`: the next of the inputs, or a free one (R42). -/
def State.nextRx (s : State) : RxDraw :=
  match s.rxDraws with
  | d :: _ => d
  | []     => Config.rxDraw s.rxFree

/-- The answer to this `RxTake` is used up. -/
def State.useRx (s : State) : State :=
  match s.rxDraws with
  | _ :: ds => { s with rxDraws := ds }
  | []      => { s with rxFree := s.rxFree + 1 }

/-- The transport's answer to the next `TxPut`: the next of the inputs, or a free one (R43). -/
def State.nextTx (s : State) : TxDraw :=
  match s.txDraws with
  | d :: _ => d
  | []     => Config.txDraw s.txFree

/-- The answer to this `TxPut` is used up. -/
def State.useTx (s : State) : State :=
  match s.txDraws with
  | _ :: ds => { s with txDraws := ds }
  | []      => { s with txFree := s.txFree + 1 }

/-- The transport removes the next `k` bytes of the RX stream (R40, R42). -/
def dropRx (k : Nat) (s : State) : State := { s with rx := s.rx.drop k }

/-- The transport accepts bytes after everything put before (R41, R43). -/
def appendTx (b : List Byte) (s : State) : State := { s with tx := s.tx ++ b }

/-- `RX_PARTIAL`: the bytes lost when a read of `n` bytes fails, `0 <= k < n` (R42). -/
def lostBytes (n : Nat) (d : RxDraw) : Nat := min d.lost (n - 1)

/-- What `RxTake` answers (R42). -/
inductive RxResult where
  | ok (b : List Byte)
  | timeout
  | io
deriving DecidableEq, Repr

/-- `RxTake(n)`'s answer (R42). `Ok` is given only with the true next `n` bytes: where the transport would deliver but
fewer than `n` bytes are on the stream, "fewer than n bytes arrived before the timeout" and the answer is `Timeout`. -/
def rxAnswer (n : Nat) (s : State) : RxResult :=
  match s.nextRx.answer with
  | .ok      => if n ≤ s.rx.length then .ok (s.rx.take n) else .timeout
  | .timeout => .timeout
  | .io      => .io

/-- The state after `RxTake(n)` (R42): on `Ok` all `n` bytes are gone, otherwise `RX_PARTIAL` of them. -/
def rxAfter (n : Nat) (s : State) : State :=
  match rxAnswer n s with
  | .ok _    => dropRx n s.useRx
  | .timeout => dropRx (lostBytes n s.nextRx) s.useRx
  | .io      => dropRx (lostBytes n s.nextRx) s.useRx

/-- The bytes of `b` that `TxPut(b)` gets accepted (R43): all of them, or the prefix `TX_PARTIAL` names. -/
def txAccepted (b : List Byte) (s : State) : List Byte :=
  match s.nextTx.answer with
  | .ok => b
  | .io => b.take s.nextTx.accepted

/-- The state after `TxPut(b)` (R43). -/
def txAfter (b : List Byte) (s : State) : State := appendTx (txAccepted b s) s.useTx

/-- `read_n(n)` of R120, then the completion the operation makes of the bytes: shared by the five reader operations.
On an error no register changes (R122). -/
def readN (n : Nat) (finish : List Byte → Completion) (s : State) : State :=
  match rxAnswer n s with
  | .ok b    => complete (finish b) (writeCrc .rx (crcUpdate s.crcRx b) (countUp n (rxAfter n s)))
  | .timeout => raise .transportTimeout (rxAfter n s)
  | .io      => raise .transportIo (rxAfter n s)

/-- The host's event at the head of the port has been taken. -/
def popPort (s : State) : State := { s with port := s.port.tail }

/-- No event is left: the host issues nothing, and nothing happens (R17, R53, R190). -/
def idle (s : State) : Host.Outcome State Fault Refusal := .next s

/-- Hardware reset between operations, taken from the port (R210, R211). -/
def resetEvent (s : State) : Host.Outcome State Fault Refusal := .next (hwReset (popPort s))

/-- A second operation while one is in flight: the model refuses the run (R56, R199). -/
def overlapEvent (_first _second : Command) (_s : State) : Host.Outcome State Fault Refusal :=
  .refused .concurrentOperations

/-- A reset while an operation is in flight: the model refuses the run (R211). -/
def resetInFlightEvent (_c : Command) (_s : State) : Host.Outcome State Fault Refusal :=
  .refused .resetInFlight

/-- A command that is no operation: a reserved code completes `IllegalOp(code)` "and changes no state and no stream"
(R83, R188); an operand the port cannot hold (R79) has no meaning. -/
def rejectCommand (e : DecodeError) (s : State) : Host.Outcome State Fault Refusal :=
  match e with
  | .reservedCode c => .next (raise (.illegalOp c) (popPort s))
  | .dataTooLong _  => .refused .operandTooLong

end Sys2Proof.Machine
end

