-- ==== Sys2Proof/Machine/ByteReader.lean ====
section
/-! DEFINITION. The typed byte reader's five operations (spec/41_byte_reader.md R120 to R129), each `read_n` at its
width and the value it makes of the bytes (spec/30_encoding.md R77). -/

namespace Sys2Proof.Machine

/-- `RD.U8` (R123). -/
def execRdU8 (s : State) : Host.Outcome State Fault Refusal :=
  .next (readN 1 (fun b => .ok (.u8 (beU8 b))) s)

/-- `RD.U16` (R124). -/
def execRdU16 (s : State) : Host.Outcome State Fault Refusal :=
  .next (readN 2 (fun b => .ok (.u16 (beU16 b))) s)

/-- `RD.U32` (R125). -/
def execRdU32 (s : State) : Host.Outcome State Fault Refusal :=
  .next (readN 4 (fun b => .ok (.u32 (beU32 b))) s)

/-- `RD.F32` (R126): the pattern, "returned bit for bit". -/
def execRdF32 (s : State) : Host.Outcome State Fault Refusal :=
  .next (readN 4 (fun b => .ok (.f32 (f32OfBits (beU32 b)))) s)

/-- `RD.BOOL` (R127): the byte is consumed, counted and folded before it is checked. -/
def execRdBool (s : State) : Host.Outcome State Fault Refusal :=
  .next (readN 1 (fun b => boolCompletion (beU8 b)) s)

end Sys2Proof.Machine
end

