-- ==== Sys2Proof/Machine/ChecksumEngine.lean ====
section
/-! DEFINITION. The checksum engine's operations `CRC.INIT`, `CRC.UPD`, `CRC.FIN` (spec/40_checksum_engine.md R105 to
R107): "None of the three touches a stream, `COUNT`, or the other checksum register, and none can fail." -/

namespace Sys2Proof.Machine

/-- `CRC.INIT s` (R105). -/
def execCrcInit (sel : CrcSel) (s : State) : Host.Outcome State Fault Refusal :=
  .next (doneOk .none (writeCrc sel Config.crcInit s))

/-- `CRC.UPD s, data` (R106). -/
def execCrcUpd (sel : CrcSel) (data : List Byte) (s : State) : Host.Outcome State Fault Refusal :=
  .next (doneOk .none (writeCrc sel (crcUpdate (readCrc sel s) data) s))

/-- `CRC.FIN s` (R107). -/
def execCrcFin (sel : CrcSel) (s : State) : Host.Outcome State Fault Refusal :=
  .next (doneOk (.u16 (crcFinish (readCrc sel s))) s)

end Sys2Proof.Machine
end

