-- ==== Sys2Proof/Machine/FrameCodec.lean ====
section
/-! DEFINITION. The frame codec's operations `WR.FRAME` and `END.FRAME` (spec/42_frame_codec.md R150 to R161). -/

namespace Sys2Proof.Machine

/-- What `WR.FRAME` completes with once the length is accepted (R150, R153). -/
def putCompletion (s : State) : Completion :=
  match s.nextTx.answer with
  | .ok => .ok .none
  | .io => .transportIo

/-- `WR.FRAME cmd, payload` with a length the field can hold (R150): `CRC[1]` is started afresh, folds the body and
is kept; the frame goes to TX in one write, or a prefix of it (R153). `CRC[0]`, `COUNT` and RX are not touched (R151). -/
def putFrame (cmd : Byte) (payload : List Byte) (s : State) : State :=
  let s1 := writeCrc .tx (crcUpdate Config.crcInit (frameBody cmd payload)) s
  complete (putCompletion s1)
    (txAfter (frameBody cmd payload ++ beBytes16 (crcFinish (readCrc .tx s1))) s1)

/-- `WR.FRAME cmd, payload` (R150), refused whole when the payload is too long (R152). -/
def execWrFrame (cmd : Byte) (payload : List Byte) (s : State) : Host.Outcome State Fault Refusal :=
  .next (if payloadTooLong payload then raise (.lengthOverflow payload.length) s
         else putFrame cmd payload s)

/-- What `END.FRAME` reports, in the order of R154 and R192: the transport's error, the size, the checksum. `computed`
and `n` are the snapshots taken before the trailing read (R156). -/
def closeCompletion (explen computed : Half) (n : Word) : RxResult → Completion
  | .timeout => .transportTimeout
  | .io      => .transportIo
  | .ok b    =>
    if !sizeMatches n explen then .sizeMismatch explen n
    else if !checksumMatches computed (beU16 b) then .checksumMismatch computed (beU16 b)
    else .ok .none

/-- `END.FRAME explen` (R154): two bytes are taken, the frame boundary is made whatever the outcome (R155), and the
outcome is reported. -/
def execEndFrame (explen : Half) (s : State) : Host.Outcome State Fault Refusal :=
  .next (complete (closeCompletion explen (crcFinish s.crcRx) s.count (rxAnswer 2 s))
    (boundary (rxAfter 2 s)))

end Sys2Proof.Machine
end

