-- ==== Sys2Proof/Machine/Dispatch.lean ====
section
/-! DEFINITION. The dispatch: one arm per constructor of `Instr` (spec/30_encoding.md R80). -/

namespace Sys2Proof.Machine

def exec (i : Instr) (s : State) : Host.Outcome State Fault Refusal :=
  match i with
  -- the checksum engine
  | .crcInit sel => Sys2Proof.Machine.execCrcInit sel s
  | .crcUpd sel data => Sys2Proof.Machine.execCrcUpd sel data s
  | .crcFin sel => Sys2Proof.Machine.execCrcFin sel s
  -- the typed byte reader
  | .rdU8 => Sys2Proof.Machine.execRdU8 s
  | .rdU16 => Sys2Proof.Machine.execRdU16 s
  | .rdU32 => Sys2Proof.Machine.execRdU32 s
  | .rdF32 => Sys2Proof.Machine.execRdF32 s
  | .rdBool => Sys2Proof.Machine.execRdBool s
  -- the frame codec
  | .wrFrame cmd payload => Sys2Proof.Machine.execWrFrame cmd payload s
  | .endFrame explen => Sys2Proof.Machine.execEndFrame explen s

end Sys2Proof.Machine
end

