-- ==== Sys2Proof/Machine/Step.lean ====
section
/-! DEFINITION. One step: the next event of the host at the command port. One operation is one step, atomic and whole
(spec/00_scope.md R13; spec/20_memory.md R53); there is no program counter to move (spec/10_state.md R27). -/

namespace Sys2Proof.Machine

/-- One step of the machine. -/
def step (s : State) : Host.Outcome State Fault Refusal :=
  match s.port with
  | [] => idle s
  | .issue c :: _ =>
    match decode c with
    | .instr i => exec i (popPort s)
    | .error e => rejectCommand e s
  | .reset :: _ => resetEvent s
  | .issueDuring c d :: _ => overlapEvent c d s
  | .resetDuring c :: _ => resetInFlightEvent c s

/-- `s` with the host about to issue the operation whose code is the table word `w`, its operand ports zero or
empty: the event goes to the head of the port, where `step` takes its next one. -/
def State.withFetchWord (s : State) (nbits w : Nat) : State :=
  { s with port := .issue (Command.ofWord nbits w) :: s.port }

end Sys2Proof.Machine
end

