-- ==== Sys2Proof/Machine/Sequence.lean ====
section
/-! DEFINITION. What the host does with the operations, one after another: a list of operations in the order of issue
(spec/20_memory.md R53; spec/43_operation_set_laws.md R174, R175) and the two pseudo-operations (spec/30_encoding.md
R85). -/

namespace Sys2Proof.Machine

/-- The operations of a list, each issued when the one before it has completed (R53, R174). -/
def execAll : List Instr → State → Host.Outcome State Fault Refusal
  | [], s => .next s
  | i :: is, s =>
    match exec i s with
    | .next t    => execAll is t
    | .fault f   => .fault f
    | .refused r => .refused r

/-- The completion of the operation that ended last was `Ok`. -/
def lastOk (s : State) : Bool :=
  match s.done.getLast? with
  | some (.ok _) => true
  | _ => false

/-- `RD.HDR` (R85): `RD.U16` then `RD.U8`; "the second is issued only if the first completed `Ok`", a condition the
host evaluates (R174). -/
def rdHdr (s : State) : Host.Outcome State Fault Refusal :=
  match exec .rdU16 s with
  | .next t    => if lastOk t then exec .rdU8 t else .next t
  | .fault f   => .fault f
  | .refused r => .refused r

/-- `CRC.CALC data` (R85): the stand-alone checksum on instance 1 (R108). -/
def crcCalc (data : List Byte) : List Instr := [.crcInit .tx, .crcUpd .tx data, .crcFin .tx]

/-- The canonical receive sequence (R162, R175): the length, the command, the reads of the payload, the close with the
length. -/
def receive (payloadReads : List Instr) (explen : Half) : List Instr :=
  [.rdU16, .rdU8] ++ payloadReads ++ [.endFrame explen]

end Sys2Proof.Machine
end

