-- ==== Sys2Proof/Safety.lean ====
section
/-! DEFINITION. The terms claims are stated in: the frame boundary and the frame invariant (spec/10_state.md R24, R25),
which operations are reads and how wide, when the transport answers `Ok`, and what the host must respect
(spec/70_reset_and_hazards.md R211, R216, R221). A run is safe when every step answers a next state. -/

namespace Sys2Proof.Machine

/-- "The block is at a frame boundary when `COUNT = 0` and `CRC[0] = 0x0000`" (R24). -/
def atBoundary (s : State) : Prop := s.count = 0#32 ∧ s.crcRx = 0x0000#16

/-- The five reader operations (R15, R120). -/
def isReader : Instr → Bool
  | .rdU8         => true
  | .rdU16        => true
  | .rdU32        => true
  | .rdF32        => true
  | .rdBool       => true
  | .crcInit _    => false
  | .crcUpd _ _   => false
  | .crcFin _     => false
  | .wrFrame _ _  => false
  | .endFrame _   => false

/-- `WR.FRAME`. -/
def isWrFrame : Instr → Bool
  | .wrFrame _ _  => true
  | .crcInit _    => false
  | .crcUpd _ _   => false
  | .crcFin _     => false
  | .rdU8         => false
  | .rdU16        => false
  | .rdU32        => false
  | .rdF32        => false
  | .rdBool       => false
  | .endFrame _   => false

/-- `END.FRAME`. -/
def isEndFrame : Instr → Bool
  | .endFrame _   => true
  | .crcInit _    => false
  | .crcUpd _ _   => false
  | .crcFin _     => false
  | .rdU8         => false
  | .rdU16        => false
  | .rdU32        => false
  | .rdF32        => false
  | .rdBool       => false
  | .wrFrame _ _  => false

/-- The bytes an operation moves on RX (R49). -/
def rxWidth : Instr → Nat
  | .rdU8         => 1
  | .rdU16        => 2
  | .rdU32        => 4
  | .rdF32        => 4
  | .rdBool       => 1
  | .endFrame _   => 2
  | .crcInit _    => 0
  | .crcUpd _ _   => 0
  | .crcFin _     => 0
  | .wrFrame _ _  => 0

/-- `CRC.INIT 0` and `CRC.UPD 0`, which "bypass the byte counter" (R221). -/
def bypassesCounter : Instr → Bool
  | .crcInit .rx   => true
  | .crcUpd .rx _  => true
  | .crcInit .tx   => false
  | .crcUpd .tx _  => false
  | .crcFin _      => false
  | .rdU8          => false
  | .rdU16         => false
  | .rdU32         => false
  | .rdF32         => false
  | .rdBool        => false
  | .wrFrame _ _   => false
  | .endFrame _    => false

/-- The event issues an operation that bypasses the byte counter (R221). -/
def HostEvent.bypasses : HostEvent → Bool
  | .issue c =>
    match decode c with
    | .instr i => bypassesCounter i
    | .error _ => false
  | .reset => false
  | .issueDuring _ _ => false
  | .resetDuring _ => false

/-- The event is one the spec gives a meaning: nothing is issued or reset while an operation is in flight (R56, R211),
and no `data` operand is longer than its port (R79; that a longer one is refused is notes/assumptions/8.md). -/
def HostEvent.allowed : HostEvent → Bool
  | .issue c =>
    match decode c with
    | .instr _ => true
    | .error (.reservedCode _) => true
    | .error (.dataTooLong _) => false
  | .reset => true
  | .issueDuring _ _ => false
  | .resetDuring _ => false

/-- The event issues an operation or a reserved code, and so is answered with a completion (R180). -/
def HostEvent.isIssue : HostEvent → Bool
  | .issue _ => true
  | .reset => false
  | .issueDuring _ _ => false
  | .resetDuring _ => false

/-- The next `k` calls of `RxTake` are answered `Ok` as long as bytes are on the stream. -/
def rxOk : Nat → State → Prop
  | 0, _     => True
  | k + 1, s => s.nextRx.answer = .ok ∧ rxOk k s.useRx

/-- The completion of an operation whose `RxTake` fails: "the two are distinct completions" (R122, R161). -/
def transportError (s : State) : Completion :=
  if s.nextRx.answer = .io then .transportIo else .transportTimeout

/-- The completion of an operation that consumed its bytes: `Ok` or `ParseError` (R25). -/
def Completion.consumed : Completion → Bool
  | .ok _                 => true
  | .parseError _         => true
  | .transportTimeout     => false
  | .transportIo          => false
  | .sizeMismatch _ _     => false
  | .checksumMismatch _ _ => false
  | .lengthOverflow _     => false
  | .illegalOp _          => false

/-- The bytes that reader operation `i` consumed in going from `s` to `t`: its width of RX if it completed with `Ok` or
`ParseError`, none otherwise (R25). -/
def consumedBy (i : Instr) (s t : State) : List Byte :=
  if isReader i && (t.done.getLast?.map Completion.consumed).getD false then s.rx.take (rxWidth i) else []

/-- "The sequence of all bytes those `RD.*` operations consumed, in order" (R25), of a list of operations from `s`. -/
def consumedBytes : List Instr → State → List Byte
  | [], _ => []
  | i :: is, s =>
    match exec i s with
    | .next t    => consumedBy i s t ++ consumedBytes is t
    | .fault _   => []
    | .refused _ => []

/-- The frame invariant of R25 with the byte sequence given, for a host that does not bypass the counter (R221): where
`b` is what has been consumed since the last frame boundary, the register is the checksum of `b` and the count its
saturated length, and no event to come bypasses the counter. -/
def FrameInv (b : List Byte) (s : State) : Prop :=
  s.crcRx = crcUpdate Config.crcInit b ∧ s.count.toNat = min b.length Config.countMax ∧
  ∀ e ∈ s.port, e.bypasses = false

/-- What has been consumed since the last frame boundary once the step from `s` to `t` is done, where it was `b`
before: the step's operation adds the bytes it consumed (R25), `END.FRAME` and hardware reset start afresh (R155, R210),
and anything else leaves `b`. -/
def consumedSince (b : List Byte) (s t : State) : List Byte :=
  match s.port with
  | .issue c :: _ =>
    match decode c with
    | .instr i => if isEndFrame i then [] else b ++ consumedBy i s t
    | .error _ => b
  | .reset :: _ => []
  | .issueDuring _ _ :: _ => b
  | .resetDuring _ :: _ => b
  | [] => b

/-- R216 for the block: the host does not issue `WR.FRAME` while a frame is being read. -/
def halfDuplex (i : Instr) (s : State) : Prop := isWrFrame i = true → s.count = 0#32

/-- What a read can see or change: the read side of the state (R54). -/
def sameReadSide (s t : State) : Prop :=
  s.crcRx = t.crcRx ∧ s.count = t.count ∧ s.rx = t.rx ∧ s.rxDraws = t.rxDraws ∧ s.rxFree = t.rxFree

/-- What a write can see or change, but for `CRC[1]`: the write side of the state (R54, R150). -/
def sameWriteSide (s t : State) : Prop :=
  s.tx = t.tx ∧ s.txDraws = t.txDraws ∧ s.txFree = t.txFree

/-- The status codes each operation can complete with: the rows of R201, a blank cell left out, and `Ok`. -/
def possibleCodes : Instr → List Nat
  | .crcInit _    => [0]
  | .crcUpd _ _   => [0]
  | .crcFin _     => [0]
  | .rdU8         => [0, 1, 2]
  | .rdU16        => [0, 1, 2]
  | .rdU32        => [0, 1, 2]
  | .rdF32        => [0, 1, 2]
  | .rdBool       => [0, 1, 2, 3]
  | .wrFrame _ _  => [0, 2, 6]
  | .endFrame _   => [0, 1, 2, 4, 5]

/-- A byte as bits, "each byte's bit 7 first" (R101). -/
def byteBits (b : Byte) : List Bool :=
  [b.getLsbD 7, b.getLsbD 6, b.getLsbD 5, b.getLsbD 4, b.getLsbD 3, b.getLsbD 2, b.getLsbD 1, b.getLsbD 0]

/-- A byte sequence as a bit string, "first byte first" (R101). -/
def bitString (m : List Byte) : List Bool := m.flatMap byteBits

end Sys2Proof.Machine
end

