-- ==== Sys2Proof/Certificates/Slice0/Obligations.lean ====
section
/-! DEFINITION. The statements for the provers, from the numbered rules of spec/. Each holds for every state, every
transport answer (listed or free) and every operand unless it says otherwise. A docstring that calls a rule the spec's
own decision or derivation names the entry of spec/92_eei_decisions.md or the rule itself. -/

open Sys2Proof Sys2Proof.Machine

/-! ## Reset and the command port -/

/-- R210 (the spec's own decision D19): hardware reset writes 0 to the three registers and nothing else, and after it
the block is at a frame boundary; `State.reset` has the same register values. -/
def Obligations.HardwareResetClearsThreeRegisters : Prop :=
  (∀ (s : State) (rest : List HostEvent), s.port = .reset :: rest →
    step s = .next { s with crcRx := 0x0000#16, crcTx := 0x0000#16, count := 0#32, port := rest }) ∧
  State.reset.crcRx = 0x0000#16 ∧ State.reset.crcTx = 0x0000#16 ∧ State.reset.count = 0#32

/-- R211 (the spec's own decision D29): reset is a step only between operations; with one in flight it is refused. -/
def Obligations.ResetOnlyBetweenOperations : Prop :=
  (∀ (s : State) (c : Command) (rest : List HostEvent), s.port = .resetDuring c :: rest →
    step s = .refused .resetInFlight) ∧
  (∀ (s : State) (rest : List HostEvent), s.port = .reset :: rest → ∃ t, step s = .next t ∧ atBoundary t)

/-- R56, R199 (the spec's own decision D26): a second operation while one is in flight has no meaning. -/
def Obligations.ConcurrentIssueIsRefused : Prop :=
  ∀ (s : State) (c d : Command) (rest : List HostEvent), s.port = .issueDuring c d :: rest →
    step s = .refused .concurrentOperations

/-- A step runs the decoded operation: when the host issues a command that decodes to `i`, the step is `exec i` with
that event taken from the port; with no event the step changes nothing (the model's choice, notes/assumptions/5.md). -/
def Obligations.StepRunsTheIssuedOperation : Prop :=
  (∀ (s : State) (i : Instr) (rest : List HostEvent), i.wellFormed = true → s.port = .issue (encode i) :: rest →
    step s = exec i { s with port := rest }) ∧
  (∀ (s : State) (c : Command) (i : Instr) (rest : List HostEvent), decode c = .instr i → s.port = .issue c :: rest →
    step s = exec i { s with port := rest }) ∧
  (∀ s : State, s.port = [] → step s = .next s)

/-- R83 (the spec's own decision D2): of the 256 codes 243 are reserved; issuing one completes `IllegalOp(code)` and
changes nothing else. -/
def Obligations.ReservedCodesCompleteIllegalOp : Prop :=
  ((List.range 256).filter fun n => reservedCode (BitVec.ofNat 8 n)).length = 243 ∧
  ∀ (s : State) (c : Command) (rest : List HostEvent), reservedCode c.code = true → s.port = .issue c :: rest →
    step s = .next { s with port := rest, done := s.done ++ [.illegalOp c.code] }

/-- A step is refused exactly when the next event is an operation issued, or a reset asserted, while another is in
flight (R56, R211, the spec's own decisions D26, D29), or a `CRC.UPD` with more than 65535 data bytes. That the last is
refused is the model's choice (notes/assumptions/8.md; R79 gives only the operand's range). No step faults: the model
has no fault (the model's reading of R16, notes/assumptions/12.md). -/
def Obligations.OnlyExcludedEventsAreRefused : Prop :=
  ∀ s : State, (∀ f, step s ≠ .fault f) ∧
    ((∃ r, step s = .refused r) ↔ ∃ e rest, s.port = e :: rest ∧ e.allowed = false)

/-- R180 (the spec's own decision D1): an issued command, reserved codes included, is answered with exactly one
completion, after the earlier ones. -/
def Obligations.EveryIssueGetsExactlyOneCompletion : Prop :=
  ∀ (s : State) (c : Command) (rest : List HostEvent), s.port = .issue c :: rest →
    (HostEvent.issue c).allowed = true →
    ∃ t x, step s = .next t ∧ t.done = s.done ++ [x] ∧ t.port = rest

/-- R16, R53 (and the spec's own decision D25): a run of events the spec allows goes to the end of the host's list,
whatever errors occur on the way, with one completion for each operation issued; earlier completions stay. That the
transport answers every call, reads and writes, is assumed (notes/assumptions/11.md; a fairness assumption in R224,
D24; R43 gives a write no timeout). -/
def Obligations.RunsReachTheEndOfTheList : Prop :=
  ∀ s : State, (∀ e ∈ s.port, e.allowed = true) →
    ∃ t, core.run s.port.length s = .next t ∧ t.port = [] ∧ s.done <+: t.done ∧
      t.done.length = s.done.length + (s.port.filter HostEvent.isIssue).length

/-! ## Encodings -/

/-- R80 (the spec's own decision D2): words written out from the table's patterns decode to the operations they stand
for. -/
def Obligations.TableWordsDecode : Prop :=
  decodeTableWord 8 0b00010000 = some (.crcInit .rx) ∧ decodeTableWord 8 0b00010001 = some (.crcInit .tx) ∧
  decodeTableWord 8 0b00010011 = some (.crcUpd .tx []) ∧ decodeTableWord 8 0b00010100 = some (.crcFin .rx) ∧
  decodeTableWord 8 0b00100000 = some .rdU8 ∧ decodeTableWord 8 0b00100100 = some .rdBool ∧
  decodeTableWord 8 0b00110000 = some (.wrFrame 0 []) ∧ decodeTableWord 8 0b00110001 = some (.endFrame 0) ∧
  decodeTableWord 8 0b00010110 = none ∧ decodeTableWord 8 0b00100101 = none

/-- Decoding the encoding of a well-formed operation gives it back, every operand at every value (R79, R80, the spec's
own decision D2). -/
def Obligations.DecodeOfEncodeIsIdentity : Prop :=
  ∀ i : Instr, i.wellFormed = true → decode (encode i) = .instr i

/-- What the decoder accepts is well formed, and encoding it gives back the code and, for the operation's own operand
ports, their values (R79, R80, the spec's own decision D2). That what is decoded is well formed rests on the decoder
refusing `CRC.UPD` with more than 65535 data bytes, which is the model's choice (notes/assumptions/8.md). -/
def Obligations.EncodeOfDecodeKeepsTheCommand : Prop :=
  ∀ (c : Command) (i : Instr), decode c = .instr i →
    i.wellFormed = true ∧ (encode i).code = c.code ∧
    (∀ sel d, i = .crcUpd sel d → (encode i).data = c.data) ∧
    (∀ k p, i = .wrFrame k p → (encode i).cmd = c.cmd ∧ (encode i).payload = c.payload) ∧
    (∀ l, i = .endFrame l → (encode i).explen = c.explen)

/-- R80 (the spec's own decision D2): "An operation code `c` selects a row when `c and mask = match`. The rows do not
overlap": the decoder reads an operation from a code exactly when some row selects it, the row is unique, and it is the
operation's own. -/
def Obligations.DecoderFollowsTheRows : Prop :=
  (∀ (c : Command) (r : OpRow), r ∈ opRows → r.selects c.code = true → c.data.length ≤ 65535 →
    ∃ i, decode c = .instr i ∧ i.mnemonic = r.mnemonic) ∧
  (∀ (c : Command) (i : Instr), decode c = .instr i →
    ∃ r ∈ opRows, r.selects c.code = true ∧ r.mnemonic = i.mnemonic ∧
      ∀ q ∈ opRows, q.selects c.code = true → q = r)

/-! ## The checksum -/

/-- R102: `crc_update` is the left fold of `crc_step`; folding in pieces is folding at once (derived by the spec). -/
def Obligations.UpdateIsTheLeftFold : Prop :=
  ∀ (c : Half) (x y : List Byte), crcUpdate c x = x.foldl crcStep c ∧
    crcUpdate c (x ++ y) = crcUpdate (crcUpdate c x) y

/-- R109 (derived by the spec from R100): the byte-table form is `crc_step`, with the table as printed. -/
def Obligations.ByteTableFormIsCrcStep : Prop :=
  crcTable.length = 256 ∧ (∀ i : Byte, crcTableAt i = crcStep 0x0000#16 i) ∧
  ∀ (c : Half) (b : Byte), crcStep c b = crcStepByTable c b

/-- R104, linearity (derived by the spec from R100): for one byte, and for sequences of one length. -/
def Obligations.ChecksumIsLinear : Prop :=
  (∀ (c d : Half) (a b : Byte), crcStep (c ^^^ d) (a ^^^ b) = crcStep c a ^^^ crcStep d b) ∧
  ∀ (c d : Half) (x y : List Byte), x.length = y.length →
    crcUpdate (c ^^^ d) (List.zipWith (· ^^^ ·) x y) = crcUpdate c x ^^^ crcUpdate d y

/-- R104, residue (derived by the spec): a sequence followed by its checksum folds to zero, so a whole frame does. -/
def Obligations.FrameWithItsChecksumFoldsToZero : Prop :=
  (∀ m : List Byte, crcUpdate 0x0000#16 (m ++ beBytes16 (crcUpdate 0x0000#16 m)) = 0x0000#16) ∧
  ∀ (cmd : Byte) (payload : List Byte), crcUpdate 0x0000#16 (frameBytes cmd payload) = 0x0000#16

/-- R104, zero stays zero (derived by the spec): the checksum cannot see leading zero bytes. -/
def Obligations.LeadingZeroBytesAreInvisible : Prop :=
  ∀ (n : Nat) (m : List Byte), checksum (List.replicate n 0x00#8 ++ m) = checksum m

/-- R104, check value: "123456789" gives `0x31C3`, and from `0xFFFF` the CCITT-FALSE value `0x29B1`. -/
def Obligations.CheckValueIsXmodem : Prop :=
  checksum [0x31#8, 0x32#8, 0x33#8, 0x34#8, 0x35#8, 0x36#8, 0x37#8, 0x38#8, 0x39#8] = 0x31C3#16 ∧
  crcUpdate 0xFFFF#16 [0x31#8, 0x32#8, 0x33#8, 0x34#8, 0x35#8, 0x36#8, 0x37#8, 0x38#8, 0x39#8] = 0x29B1#16

/-- R222 (derived by the spec from linearity): a corruption leaves the checksum unchanged exactly when its difference
pattern itself has checksum zero. -/
def Obligations.UndetectedCorruptionsAreThoseOfChecksumZero : Prop :=
  ∀ m d : List Byte, d.length = m.length →
    (checksum (List.zipWith (· ^^^ ·) m d) = checksum m ↔ checksum d = 0x0000#16)

/-- R101, the polynomial reading (which the spec marks as general knowledge): the checksum's bits are the coefficients
of the remainder of `M(x) * x^16` by `x^16 + x^12 + x^5 + 1` over GF(2), most significant bit first. -/
def Obligations.ChecksumIsThePolynomialRemainder : Prop :=
  ∀ m : List Byte,
    let poly : List Bool → Polynomial (ZMod 2) :=
      List.foldl (fun p b => p * Polynomial.X + (if b then 1 else 0)) 0
    poly (bitString (beBytes16 (checksum m))) =
      Polynomial.modByMonic (poly (bitString m) * Polynomial.X ^ 16)
        (Polynomial.X ^ 16 + Polynomial.X ^ 12 + Polynomial.X ^ 5 + 1)

/-! ## The checksum engine -/

/-- R105 (the spec's own decision D3): `CRC.INIT s` sets the register it names to 0 and completes `Ok`; nothing else
changes. -/
def Obligations.CrcInitClearsTheRegister : Prop :=
  ∀ s : State,
    exec (.crcInit .rx) s = .next { s with crcRx := 0x0000#16, done := s.done ++ [.ok .none] } ∧
    exec (.crcInit .tx) s = .next { s with crcTx := 0x0000#16, done := s.done ++ [.ok .none] }

/-- R106 (the spec's own decisions D3, D27): `CRC.UPD s, data` folds the data into the register it names and completes
`Ok`; nothing else changes. -/
def Obligations.CrcUpdFoldsTheData : Prop :=
  ∀ (s : State) (data : List Byte),
    exec (.crcUpd .rx data) s = .next { s with crcRx := crcUpdate s.crcRx data, done := s.done ++ [.ok .none] } ∧
    exec (.crcUpd .tx data) s = .next { s with crcTx := crcUpdate s.crcTx data, done := s.done ++ [.ok .none] }

/-- R107 (the spec's own decision D3): `CRC.FIN s` completes with the register it names; nothing changes. -/
def Obligations.CrcFinReturnsTheRegister : Prop :=
  ∀ s : State,
    exec (.crcFin .rx) s = .next { s with done := s.done ++ [.ok (.u16 s.crcRx)] } ∧
    exec (.crcFin .tx) s = .next { s with done := s.done ++ [.ok (.u16 s.crcTx)] }

/-- R85, R108 (derived by the spec): `CRC.CALC data` returns the checksum of `data` whatever `CRC[1]` held, and leaves
the read side and the streams alone. -/
def Obligations.CrcCalcReturnsTheChecksum : Prop :=
  ∀ (s : State) (data : List Byte),
    execAll (crcCalc data) s = .next { s with
      crcTx := checksum data
      done := s.done ++ [.ok .none, .ok .none, .ok (.u16 (checksum data))] }

/-! ## The registers -/

/-- R21: who writes `CRC[0]`, and with what; reset clears it; every other operation leaves it. -/
def Obligations.ReadSideRegisterWriters : Prop :=
  (∀ s : State, (hwReset s).crcRx = 0x0000#16) ∧
  ∀ (i : Instr) (s : State), ∃ t, exec i s = .next t ∧
    (isReader i = true → t.crcRx = crcUpdate s.crcRx (consumedBy i s t)) ∧
    (isEndFrame i = true → t.crcRx = 0x0000#16) ∧
    (i = .crcInit .rx → t.crcRx = 0x0000#16) ∧
    (∀ d, i = .crcUpd .rx d → t.crcRx = crcUpdate s.crcRx d) ∧
    (isReader i = false → isEndFrame i = false → bypassesCounter i = false → t.crcRx = s.crcRx)

/-- R22 (the spec's own decisions D3, D4): who writes `CRC[1]`, and with what; reset clears it; every other operation
leaves it. A refused payload leaves it (R152, the spec's own decision D15); a failed write keeps the checksum of the
whole intended body (R153, the spec's own decision D16). -/
def Obligations.WriteSideRegisterWriters : Prop :=
  (∀ s : State, (hwReset s).crcTx = 0x0000#16) ∧
  ∀ (i : Instr) (s : State), ∃ t, exec i s = .next t ∧
    (∀ cmd p, i = .wrFrame cmd p → p.length ≤ 65530 → t.crcTx = checksum (frameBody cmd p)) ∧
    (∀ cmd p, i = .wrFrame cmd p → 65530 < p.length → t.crcTx = s.crcTx) ∧
    (i = .crcInit .tx → t.crcTx = 0x0000#16) ∧
    (∀ d, i = .crcUpd .tx d → t.crcTx = crcUpdate s.crcTx d) ∧
    (isWrFrame i = false → i ≠ .crcInit .tx → (∀ d, i ≠ .crcUpd .tx d) → t.crcTx = s.crcTx)

/-- R23 (the spec's own decision D5): a read adds the bytes it consumed, saturating at 2^32 - 1, `END.FRAME` and
reset set 0, and no other operation writes `COUNT`. -/
def Obligations.CountWriters : Prop :=
  (∀ s : State, (hwReset s).count = 0#32) ∧
  ∀ (i : Instr) (s : State), ∃ t x, exec i s = .next t ∧ t.done = s.done ++ [x] ∧
    (isReader i = true →
      t.count.toNat = min (s.count.toNat + if x.consumed then rxWidth i else 0) 4294967295) ∧
    (isEndFrame i = true → t.count = 0#32) ∧
    (isReader i = false → isEndFrame i = false → t.count = s.count)

/-- The frame of the engine's three operations (R105 to R107): no stream, no count, no event of the host. -/
def Obligations.EngineOperationsTouchNoStream : Prop :=
  ∀ (i : Instr) (s : State), isReader i = false → isWrFrame i = false → isEndFrame i = false →
    ∃ t, exec i s = .next t ∧ t.count = s.count ∧ t.rx = s.rx ∧ t.tx = s.tx ∧ t.port = s.port ∧
      t.rxDraws = s.rxDraws ∧ t.rxFree = s.rxFree ∧ t.txDraws = s.txDraws ∧ t.txFree = s.txFree

/-! ## The byte reader -/

/-- R123: `RD.U8` takes, counts and folds one byte and returns it, whatever its value; it completes with that or with
one of the transport's two errors. -/
def Obligations.RdU8ReturnsTheByte : Prop :=
  (∀ (s : State) (b : Byte) (rest : List Byte), s.nextRx.answer = .ok → s.rx = b :: rest →
    exec .rdU8 s = .next { s with
      rxDraws := s.useRx.rxDraws, rxFree := s.useRx.rxFree,
      rx := rest, count := satAdd s.count 1, crcRx := crcUpdate s.crcRx [b], done := s.done ++ [.ok (.u8 b)] }) ∧
  ∀ s : State, ∃ t x, exec .rdU8 s = .next t ∧ t.done = s.done ++ [x] ∧
    ((∃ b, x = .ok (.u8 b)) ∨ x = .transportTimeout ∨ x = .transportIo)

/-- R120, R124: `RD.U16` takes, counts and folds two bytes and returns `b[0] * 2^8 + b[1]`; when they do not both
arrive it completes with the transport's error and changes no register (R122, the spec's own decision D9; which bytes
are lost and that a stream too short gives a timeout: notes/assumptions/1.md, 6.md). -/
def Obligations.RdU16ReturnsBigEndian : Prop :=
  (∀ (s : State) (a b : Byte) (rest : List Byte), s.nextRx.answer = .ok → s.rx = a :: b :: rest →
    exec .rdU16 s = .next { s with
      rxDraws := s.useRx.rxDraws, rxFree := s.useRx.rxFree,
      rx := rest, count := satAdd s.count 2, crcRx := crcUpdate s.crcRx [a, b],
      done := s.done ++ [.ok (.u16 (BitVec.ofNat 16 (a.toNat * 2 ^ 8 + b.toNat)))] }) ∧
  ∀ s : State, (s.nextRx.answer = .ok → s.rx.length < 2) →
    exec .rdU16 s = .next { s with
      rxDraws := s.useRx.rxDraws, rxFree := s.useRx.rxFree,
      rx := s.rx.drop (lostBytes 2 s.nextRx), done := s.done ++ [transportError s] }

/-- R120, R125: `RD.U32` takes, counts and folds four bytes and returns them big-endian; when they do not all arrive it
completes with the transport's error and changes no register (R122, the spec's own decision D9; which bytes are lost
and that a stream too short gives a timeout: notes/assumptions/1.md, 6.md). -/
def Obligations.RdU32ReturnsBigEndian : Prop :=
  (∀ (s : State) (a b c d : Byte) (rest : List Byte), s.nextRx.answer = .ok → s.rx = a :: b :: c :: d :: rest →
    exec .rdU32 s = .next { s with
      rxDraws := s.useRx.rxDraws, rxFree := s.useRx.rxFree,
      rx := rest, count := satAdd s.count 4, crcRx := crcUpdate s.crcRx [a, b, c, d],
      done := s.done ++ [.ok (.u32 (BitVec.ofNat 32
        (a.toNat * 2 ^ 24 + b.toNat * 2 ^ 16 + c.toNat * 2 ^ 8 + d.toNat)))] }) ∧
  ∀ s : State, (s.nextRx.answer = .ok → s.rx.length < 4) →
    exec .rdU32 s = .next { s with
      rxDraws := s.useRx.rxDraws, rxFree := s.useRx.rxFree,
      rx := s.rx.drop (lostBytes 4 s.nextRx), done := s.done ++ [transportError s] }

/-- R126 (the spec's own decision D7): `RD.F32` returns the pattern `RD.U32` would, bit for bit, as a `float32`, and
fails as it does (R122, the spec's own decision D9; which bytes are lost and that a stream too short gives a timeout:
notes/assumptions/1.md, 6.md). -/
def Obligations.RdF32ReturnsThePattern : Prop :=
  (∀ (s : State) (a b c d : Byte) (rest : List Byte), s.nextRx.answer = .ok → s.rx = a :: b :: c :: d :: rest →
    exec .rdF32 s = .next { s with
      rxDraws := s.useRx.rxDraws, rxFree := s.useRx.rxFree,
      rx := rest, count := satAdd s.count 4, crcRx := crcUpdate s.crcRx [a, b, c, d],
      done := s.done ++ [.ok (.f32 (BitVec.ofNat 32
        (a.toNat * 2 ^ 24 + b.toNat * 2 ^ 16 + c.toNat * 2 ^ 8 + d.toNat)))] }) ∧
  ∀ s : State, (s.nextRx.answer = .ok → s.rx.length < 4) →
    exec .rdF32 s = .next { s with
      rxDraws := s.useRx.rxDraws, rxFree := s.useRx.rxFree,
      rx := s.rx.drop (lostBytes 4 s.nextRx), done := s.done ++ [transportError s] }

/-- R127 (the spec's own decision D8): `RD.BOOL` consumes its byte whatever it is; 0 is `false`, 1 is `true`, anything
else completes `ParseError` with the byte. When the byte does not arrive it completes with the transport's error (R122,
the spec's own decision D9; which bytes are lost and that a stream too short gives a timeout: notes/assumptions/1.md,
6.md). -/
def Obligations.RdBoolAcceptsOnlyZeroAndOne : Prop :=
  (∀ (s : State) (b : Byte) (rest : List Byte), s.nextRx.answer = .ok → s.rx = b :: rest →
    ∃ x, exec .rdBool s = .next { s with
        rxDraws := s.useRx.rxDraws, rxFree := s.useRx.rxFree,
        rx := rest, count := satAdd s.count 1, crcRx := crcUpdate s.crcRx [b], done := s.done ++ [x] } ∧
      (b = 0x00#8 → x = .ok (.bool false)) ∧ (b = 0x01#8 → x = .ok (.bool true)) ∧
      (b ≠ 0x00#8 → b ≠ 0x01#8 → x = .parseError b)) ∧
  ∀ s : State, (s.nextRx.answer = .ok → s.rx.length < 1) →
    exec .rdBool s = .next { s with
      rxDraws := s.useRx.rxDraws, rxFree := s.useRx.rxFree,
      rx := s.rx.drop (lostBytes 1 s.nextRx), done := s.done ++ [transportError s] }

/-- R122 (the spec's own decision D9): a read whose `RxTake` fails changes no register, loses fewer bytes than its
width, the transport's number of them from the front of RX, and completes with the transport's error, the timeout told
apart from other failures. Which bytes are lost, and that a stream too short gives a timeout, is
notes/assumptions/1.md, 6.md. -/
def Obligations.FailedReadChangesNoRegister : Prop :=
  ∀ (i : Instr) (s : State), isReader i = true →
    (s.nextRx.answer = .ok → s.rx.length < rxWidth i) →
    ∃ k, k = lostBytes (rxWidth i) s.nextRx ∧ k < rxWidth i ∧
      exec i s = .next { s with
        rxDraws := s.useRx.rxDraws, rxFree := s.useRx.rxFree,
        rx := s.rx.drop k, done := s.done ++ [transportError s] }

/-- The reader operations leave the write side (R120: "`CRC[1]` and the TX stream are not touched"; R122, the spec's
own decision D9, for a failed read) and the port, take bytes from the front of RX only (R40, R53), and use one answer
of the transport. That the bytes a failed read loses are the next ones is the model's inference
(notes/assumptions/6.md); that each call uses one answer is its form of the draw of R42 (notes/assumptions/1.md). -/
def Obligations.ReadersLeaveTheWriteSide : Prop :=
  ∀ (i : Instr) (s : State), isReader i = true →
    ∃ t k, exec i s = .next t ∧ k ≤ rxWidth i ∧ t.rx = s.rx.drop k ∧ t.crcTx = s.crcTx ∧ t.tx = s.tx ∧
      t.txDraws = s.txDraws ∧ t.txFree = s.txFree ∧ t.port = s.port ∧
      t.rxDraws = s.useRx.rxDraws ∧ t.rxFree = s.useRx.rxFree

/-- R121 (derived by the spec): a failed read at a frame boundary leaves the block at the boundary. Which bytes a
failed read loses, and that a stream too short gives a timeout, is notes/assumptions/1.md, 6.md. -/
def Obligations.FailedReadAtBoundaryStaysThere : Prop :=
  ∀ (i : Instr) (s : State), isReader i = true → atBoundary s →
    (s.nextRx.answer = .ok → s.rx.length < rxWidth i) → ∃ t, exec i s = .next t ∧ atBoundary t

/-- R47 (derived by the spec): `CRC[0]`, `COUNT` and the place in the stream depend on which bytes were consumed, not
on how they were grouped into reads. -/
def Obligations.GroupingOfReadsIsInvisible : Prop :=
  ∀ (is js : List Instr) (s : State),
    (∀ i ∈ is, isReader i = true) → (∀ j ∈ js, isReader j = true) →
    (is.map rxWidth).sum = (js.map rxWidth).sum → (is.map rxWidth).sum ≤ s.rx.length →
    rxOk is.length s → rxOk js.length s →
    ∃ t u, execAll is s = .next t ∧ execAll js s = .next u ∧
      t.crcRx = u.crcRx ∧ t.count = u.count ∧ t.rx = u.rx

/-- R47 (derived by the spec), the values: one `RD.U32` and two `RD.U16` over the same bytes. -/
def Obligations.OneU32IsTwoU16 : Prop :=
  ∀ (s : State) (a b c d : Byte) (rest : List Byte), s.rx = a :: b :: c :: d :: rest → rxOk 2 s →
    ∃ t u w h l, exec .rdU32 s = .next t ∧ execAll [.rdU16, .rdU16] s = .next u ∧
      t.done = s.done ++ [.ok (.u32 w)] ∧ u.done = s.done ++ [.ok (.u16 h), .ok (.u16 l)] ∧
      w.toNat = h.toNat * 2 ^ 16 + l.toNat

/-- R85 (the spec's own decision D22): `RD.HDR` issues `RD.U8` only if `RD.U16` completed `Ok`. Which bytes a failed
read loses, and that a stream too short gives a timeout, is notes/assumptions/1.md, 6.md. -/
def Obligations.RdHdrStopsAtAFailedLength : Prop :=
  ∀ s : State,
    (∀ (a b : Byte) (rest : List Byte), s.nextRx.answer = .ok → s.rx = a :: b :: rest →
      rdHdr s = execAll [.rdU16, .rdU8] s) ∧
    ((s.nextRx.answer = .ok → s.rx.length < 2) → rdHdr s = exec .rdU16 s)

/-- R201 (derived by the spec): an operation completes with one of the codes its row lists, and with each of them in
some state and for some operands. -/
def Obligations.OperationsRaiseExactlyTheirErrors : Prop :=
  (∀ (i : Instr) (s : State), ∃ t x, exec i s = .next t ∧ t.done = s.done ++ [x] ∧ x.code ∈ possibleCodes i) ∧
  ∀ (i : Instr) (k : Nat), k ∈ possibleCodes i →
    ∃ (j : Instr) (s t : State) (x : Completion), j.mnemonic = i.mnemonic ∧ exec j s = .next t ∧
      t.done = s.done ++ [x] ∧ x.code = k

/-! ## The frame codec -/

/-- R70: the bytes of a frame, field by field, at every payload length the field can carry. -/
def Obligations.FrameFieldsAreInPlace : Prop :=
  ∀ (cmd : Byte) (payload : List Byte), payload.length ≤ 65530 →
    let f := frameBytes cmd payload
    f.length = 5 + payload.length ∧ 5 ≤ f.length ∧ f.length ≤ 65535 ∧
    beNat (f.take 2) = f.length ∧ f[2]? = some cmd ∧ (f.drop 3).take payload.length = payload ∧
    beU16 (f.drop (3 + payload.length)) = checksum (f.take (f.length - 2))

/-- R78, R150 (the spec's own decision D4 for what `CRC[1]` keeps): `WR.FRAME` puts, as one write after everything put
before, the length `L = N + 5`, the command, the payload and the checksum of all these, and `CRC[1]` holds that
checksum. -/
def Obligations.WrFrameEmitsTheFrame : Prop :=
  ∀ (s : State) (cmd : Byte) (payload : List Byte), payload.length ≤ 65530 → s.nextTx.answer = .ok →
    ∃ (body : List Byte) (k : Half),
      body = [BitVec.ofNat 8 ((payload.length + 5) / 256), BitVec.ofNat 8 ((payload.length + 5) % 256), cmd] ++ payload ∧
      k = crcUpdate 0x0000#16 body ∧
      exec (.wrFrame cmd payload) s = .next { s with
        txDraws := s.useTx.txDraws, txFree := s.useTx.txFree,
        crcTx := k, tx := s.tx ++ (body ++ [k.extractLsb' 8 8, k.extractLsb' 0 8]), done := s.done ++ [.ok .none] }

/-- R152 (the spec's own decision D15): a payload of more than 65530 bytes is refused with no effect at all. -/
def Obligations.WrFrameRefusesLongPayloads : Prop :=
  ∀ (s : State) (cmd : Byte) (payload : List Byte), 65530 < payload.length →
    exec (.wrFrame cmd payload) s = .next { s with done := s.done ++ [.lengthOverflow payload.length] }

/-- R153 (the spec's own decision D16): when the transport fails a prefix of the frame is on TX, and `CRC[1]` holds the
checksum of the whole intended body. How long the prefix is, the number drawn cut to the length of the write, is the
model's form of `TX_PARTIAL` (notes/assumptions/2.md). -/
def Obligations.WrFrameFailureLeavesAPrefix : Prop :=
  ∀ (s : State) (cmd : Byte) (payload : List Byte), payload.length ≤ 65530 → s.nextTx.answer = .io →
    ∃ pre, pre <+: frameBytes cmd payload ∧ pre.length = min s.nextTx.accepted (payload.length + 5) ∧
      exec (.wrFrame cmd payload) s = .next { s with
        txDraws := s.useTx.txDraws, txFree := s.useTx.txFree,
        crcTx := checksum (frameBody cmd payload), tx := s.tx ++ pre, done := s.done ++ [.transportIo] }

/-- R151 (the spec's own decision D21): in every case `WR.FRAME` leaves `CRC[0]`, `COUNT`, RX and the port. -/
def Obligations.WrFrameLeavesTheReadSide : Prop :=
  ∀ (s : State) (cmd : Byte) (payload : List Byte),
    ∃ t, exec (.wrFrame cmd payload) s = .next t ∧ sameReadSide t s ∧ t.port = s.port

/-- R54, R150: the frame put on TX depends neither on the read side nor on what `CRC[1]` held. -/
def Obligations.EmittedFrameIgnoresTheReadSide : Prop :=
  ∀ (s t : State) (cmd : Byte) (payload : List Byte), sameWriteSide s t →
    ∃ s' t' x, exec (.wrFrame cmd payload) s = .next s' ∧ exec (.wrFrame cmd payload) t = .next t' ∧
      sameWriteSide s' t' ∧ s'.done = s.done ++ [x] ∧ t'.done = t.done ++ [x] ∧
      (payload.length ≤ 65530 → s'.crcTx = t'.crcTx)

/-- R154 (the spec's own decision D10): `END.FRAME` takes its snapshots, takes two bytes, makes the boundary and
reports in this order: the transport's error, the size, the checksum, `Ok`. Which bytes a failed read loses, and that a
stream too short gives a timeout, is notes/assumptions/1.md, 6.md. -/
def Obligations.EndFrameChecksSizeThenChecksum : Prop :=
  (∀ (s : State) (explen : Half) (a b : Byte) (rest : List Byte), s.nextRx.answer = .ok → s.rx = a :: b :: rest →
    ∃ x, exec (.endFrame explen) s = .next { s with
        rxDraws := s.useRx.rxDraws, rxFree := s.useRx.rxFree,
        rx := rest, crcRx := 0x0000#16, count := 0#32, done := s.done ++ [x] } ∧
      x = if s.count.toNat + 2 ≠ explen.toNat then .sizeMismatch explen s.count
          else if s.crcRx ≠ BitVec.ofNat 16 (a.toNat * 2 ^ 8 + b.toNat) then
            .checksumMismatch s.crcRx (BitVec.ofNat 16 (a.toNat * 2 ^ 8 + b.toNat))
          else .ok .none) ∧
  ∀ (s : State) (explen : Half), (s.nextRx.answer = .ok → s.rx.length < 2) →
    exec (.endFrame explen) s = .next { s with
      rxDraws := s.useRx.rxDraws, rxFree := s.useRx.rxFree,
      rx := s.rx.drop (lostBytes 2 s.nextRx), crcRx := 0x0000#16, count := 0#32,
      done := s.done ++ [transportError s] }

/-- R154, R158 (the spec's own decisions D10, D18): `END.FRAME` completes `Ok` when the count and the checksum agree
with the frame's. -/
def Obligations.EndFrameAcceptsAMatchingFrame : Prop :=
  ∀ (s : State) (explen : Half) (rest : List Byte), s.nextRx.answer = .ok →
    s.rx = beBytes16 s.crcRx ++ rest → s.count.toNat + 2 = explen.toNat →
    exec (.endFrame explen) s = .next { s with
      rxDraws := s.useRx.rxDraws, rxFree := s.useRx.rxFree,
      rx := rest, crcRx := 0x0000#16, count := 0#32, done := s.done ++ [.ok .none] }

/-- R155 (the spec's own decision D11 for the transport errors): `END.FRAME` makes the frame boundary whatever it
reports; `CRC[1]`, TX and the port are not touched. -/
def Obligations.EndFrameAlwaysMakesABoundary : Prop :=
  ∀ (s : State) (explen : Half), ∃ t, exec (.endFrame explen) s = .next t ∧ atBoundary t ∧
    t.crcTx = s.crcTx ∧ sameWriteSide t s ∧ t.port = s.port

/-- R157 (the spec's own decisions D10, D12, D18): a delivered close whose count disagrees reports `SizeMismatch` with
`explen` and the count, whatever the two bytes are; so does every close with `explen` of 0 or 1. -/
def Obligations.SizeMismatchIgnoresTheChecksum : Prop :=
  ∀ (s : State) (explen : Half), s.nextRx.answer = .ok → 2 ≤ s.rx.length →
    (s.count.toNat + 2 ≠ explen.toNat ∨ explen = 0#16 ∨ explen = 1#16) →
    ∃ t, exec (.endFrame explen) s = .next t ∧ t.done = s.done ++ [.sizeMismatch explen s.count] ∧ atBoundary t

/-- R161 (the spec's own decisions D10, D11): a transport error at the close is what is reported, the boundary is made
all the same, and at most one byte is lost. Which bytes a failed read loses, and that a stream too short gives a
timeout, is notes/assumptions/1.md, 6.md. -/
def Obligations.CloseReportsTransportErrorFirst : Prop :=
  ∀ (s : State) (explen : Half), (s.nextRx.answer = .ok → s.rx.length < 2) →
    ∃ t k, exec (.endFrame explen) s = .next t ∧ atBoundary t ∧ k ≤ 1 ∧ t.rx = s.rx.drop k ∧
      t.done = s.done ++ [transportError s]

/-- R160 (the spec's own decision D13, conflict C1): `END.FRAME` does not drain: a delivered close takes two bytes,
whatever `explen` and the count are, the rest stays, and a host that consumed too little is told `SizeMismatch`. -/
def Obligations.EndFrameDoesNotDrain : Prop :=
  ∀ (s : State) (explen : Half), s.nextRx.answer = .ok → 2 ≤ s.rx.length →
    ∃ t, exec (.endFrame explen) s = .next t ∧ t.rx = s.rx.drop 2 ∧
      (s.count.toNat < explen.toNat - 2 → t.done = s.done ++ [.sizeMismatch explen s.count])

/-! ## The whole machine -/

/-- R40, R41, R51, R53: a step only takes from the front of RX, only appends to TX, and takes back no completion. That
the bytes a failed read loses are the next ones is the model's inference (notes/assumptions/6.md), and that completions
are kept as a list is its choice (notes/assumptions/9.md). -/
def Obligations.StreamsOnlyMoveForward : Prop :=
  ∀ s t : State, step s = .next t → t.rx <:+ s.rx ∧ s.tx <+: t.tx ∧ s.done <+: t.done ∧ t.port <:+ s.port

/-- The frame invariant of R25 holds at reset, with no byte consumed yet: the registers are those of R210 (the spec's
own decision D19). Its clause about events to come holds because the host's list is empty at reset, which is the
model's choice (notes/assumptions/3.md). -/
def Obligations.FrameInvHoldsAtReset : Prop := FrameInv [] State.reset

/-- R25 for single steps (derived by the spec): where `CRC[0]` and `COUNT` are the checksum and the saturated length of
the bytes `b` consumed since the last boundary, and no operation to come bypasses the counter (R221), then after any
step, whatever the transport answers, they are those of `b` followed by exactly the bytes the step's operation
consumed; of no byte after `END.FRAME` or hardware reset; and of `b` itself otherwise. -/
def Obligations.EveryStepKeepsFrameInv : Prop :=
  ∀ (b : List Byte) (s t : State), FrameInv b s → step s = .next t → FrameInv (consumedSince b s t) t

/-- R24 (derived by the spec): under the frame invariant `COUNT = 0` alone is the test for the frame boundary, while
`CRC[0] = 0x0000` alone is not. -/
def Obligations.CountZeroIsTheBoundaryTest : Prop :=
  (∀ (b : List Byte) (s : State), FrameInv b s → s.count = 0#32 → atBoundary s) ∧
  ∃ (b : List Byte) (s : State), FrameInv b s ∧ s.crcRx = 0x0000#16 ∧ ¬ atBoundary s

/-- R25 (derived by the spec): from a frame boundary, after any reads and frames written, failed ones included, `CRC[0]`
and `COUNT` are the checksum and the saturated length of exactly the bytes the reads consumed. -/
def Obligations.ReadsAccumulateExactlyTheConsumedBytes : Prop :=
  ∀ (ops : List Instr) (s : State), atBoundary s → (∀ i ∈ ops, isReader i = true ∨ isWrFrame i = true) →
    ∃ t, execAll ops s = .next t ∧ t.crcRx = crcUpdate 0x0000#16 (consumedBytes ops s) ∧
      t.count.toNat = min (consumedBytes ops s).length 4294967295

/-- R151, R216 (the spec's own decision D21): a frame written in the middle of a frame being read changes nothing for
the reads and the closes that follow: the same completions, registers and stream. -/
def Obligations.WritingInMidFrameDisturbsNoRead : Prop :=
  ∀ (ops : List Instr) (s : State) (cmd : Byte) (payload : List Byte),
    (∀ i ∈ ops, isReader i = true ∨ isEndFrame i = true) →
    ∃ t w u cs, execAll ops s = .next t ∧ exec (.wrFrame cmd payload) s = .next w ∧ execAll ops w = .next u ∧
      sameReadSide u t ∧ t.done = s.done ++ cs ∧ u.done = w.done ++ cs

/-- R162 (derived by the spec): the canonical receive sequence, with any reads that consume the payload, closes a
well-formed frame with `Ok`, at a boundary, with the stream at the first byte after the frame. -/
def Obligations.CanonicalReceiveClosesOk : Prop :=
  ∀ (s : State) (cmd : Byte) (payload rest : List Byte) (reads : List Instr), atBoundary s →
    payload.length ≤ 65530 → s.rx = frameBytes cmd payload ++ rest →
    (∀ i ∈ reads, isReader i = true) → (reads.map rxWidth).sum = payload.length →
    rxOk (reads.length + 3) s →
    ∃ t, execAll (receive reads (BitVec.ofNat 16 (payload.length + 5))) s = .next t ∧ atBoundary t ∧
      t.rx = rest ∧ t.done.getLast? = some (.ok .none)

/-- R163 (derived by the spec): the bytes `WR.FRAME` put on TX, presented as RX to a block at a frame boundary, give
back the length, the command and the payload, and the close completes `Ok`. -/
def Obligations.FrameSymmetry : Prop :=
  ∀ (s w r : State) (cmd : Byte) (payload emitted rest : List Byte), payload.length ≤ 65530 →
    s.nextTx.answer = .ok → exec (.wrFrame cmd payload) s = .next w → w.tx = s.tx ++ emitted →
    atBoundary r → r.rx = emitted ++ rest → rxOk (payload.length + 3) r →
    ∃ t, execAll (receive (List.replicate payload.length .rdU8) (BitVec.ofNat 16 (payload.length + 5))) r = .next t ∧
      t.done = r.done ++ [.ok (.u16 (BitVec.ofNat 16 (payload.length + 5))), .ok (.u8 cmd)] ++
        payload.map (fun b => .ok (.u8 b)) ++ [.ok .none] ∧
      atBoundary t ∧ t.rx = rest ∧ t.crcTx = r.crcTx ∧ t.tx = r.tx
end

