-- ==== Sys2Proof/Laws/Checksum.lean ====
section
/-! SUPPORT. The small lemmas of the checksum functions (spec/40_checksum_engine.md R100 to R103): a shift step is
linear, a shift step of a state whose top bit is 0 is a plain shift, and the fold splits. -/

namespace Sys2Proof.Machine

@[simp] theorem crcUpdate_nil (c : Half) : crcUpdate c [] = c := rfl

@[simp] theorem crcUpdate_cons (c : Half) (b : Byte) (bs : List Byte) :
    crcUpdate c (b :: bs) = crcUpdate (crcStep c b) bs := rfl

/-- Folding in pieces (R102). -/
theorem crcUpdate_append (c : Half) (x y : List Byte) :
    crcUpdate c (x ++ y) = crcUpdate (crcUpdate c x) y := by
  induction x generalizing c with
  | nil => rfl
  | cons b bs ih => exact ih _

@[simp] theorem crcFinish_eq (c : Half) : crcFinish c = c := rfl

@[simp] theorem crcInit_eq : Config.crcInit = 0x0000#16 := rfl

theorem checksum_eq (m : List Byte) : checksum m = crcUpdate 0x0000#16 m := rfl

/-- One shift step is linear. -/
theorem crcShift_xor (t u : Half) : crcShift (t ^^^ u) = crcShift t ^^^ crcShift u := by
  unfold crcShift
  rw [BitVec.getLsbD_xor, BitVec.shiftLeft_xor_distrib]
  cases t.getLsbD 15 <;> cases u.getLsbD 15 <;> simp
  · rw [BitVec.xor_assoc]
  · rw [BitVec.xor_assoc, BitVec.xor_assoc]; congr 1; exact BitVec.xor_comm _ _
  · rw [BitVec.xor_assoc, ← BitVec.xor_assoc Config.crcPoly, BitVec.xor_comm Config.crcPoly, BitVec.xor_assoc,
      BitVec.xor_self, BitVec.xor_zero]

/-- Any number of shift steps is linear. -/
theorem crcShifts_xor (n : Nat) (t u : Half) : crcShifts n (t ^^^ u) = crcShifts n t ^^^ crcShifts n u := by
  induction n generalizing t u with
  | zero => rfl
  | succ n ih => simp [crcShifts, crcShift_xor, ih]

/-- A state whose top bit is 0 is shifted and nothing else. -/
theorem crcShift_of_low (t : Half) (h : t.getLsbD 15 = false) : crcShift t = t <<< 1 := by
  unfold crcShift; rw [h]; rfl

end Sys2Proof.Machine
end

