-- ==== Sys2Proof/Laws/Decode.lean ====
section
/-! SUPPORT. What the decoder answers for the encoding of each operation, and what a step does with each kind of event
(spec/30_encoding.md R80, R83). -/

namespace Sys2Proof.Machine

/-- The select bit of a code is the instance it was made from. -/
theorem ofBit_code (sel : CrcSel) :
    CrcSel.ofBit ((0x10#8 ||| sel.bit).getLsbD 0) = sel ∧ CrcSel.ofBit ((0x12#8 ||| sel.bit).getLsbD 0) = sel ∧
    CrcSel.ofBit ((0x14#8 ||| sel.bit).getLsbD 0) = sel := by
  cases sel <;> decide

/-- A code that selects no row is rejected as reserved (R83). -/
theorem decode_reserved {c : Command} (h : reservedCode c.code = true) :
    decode c = .error (.reservedCode c.code) := by
  simp only [reservedCode, opRows, List.all_cons, OpRow.selects, List.all_nil, Bool.and_eq_true,
    Bool.not_eq_true', beq_eq_false_iff_ne, ne_eq] at h
  have hf : ∀ b : Byte, b &&& 0xFF#8 = b := by decide
  simp only [hf] at h
  unfold decode
  simp [h]

theorem step_issue {s : State} {c : Command} {i : Instr} {rest : List HostEvent}
    (hd : decode c = .instr i) (hp : s.port = .issue c :: rest) :
    step s = exec i { s with port := rest } := by
  simp [step, hp, hd, popPort]

theorem step_reserved {s : State} {c : Command} {k : Byte} {rest : List HostEvent}
    (hd : decode c = .error (.reservedCode k)) (hp : s.port = .issue c :: rest) :
    step s = .next { s with port := rest, done := s.done ++ [.illegalOp k] } := by
  simp [step, hp, hd, rejectCommand, popPort, raise, complete]

theorem step_reset {s : State} {rest : List HostEvent} (hp : s.port = .reset :: rest) :
    step s = .next { s with crcRx := 0x0000#16, crcTx := 0x0000#16, count := 0#32, port := rest } := by
  simp [step, hp, resetEvent, hwReset, popPort, Config.crcInit]

theorem step_idle {s : State} (hp : s.port = []) : step s = .next s := by
  simp [step, hp, idle]

/-- What a step that answers a next state can have done: nothing, run the issued operation, complete a reserved code,
or reset. -/
theorem step_cases {s t : State} (h : step s = .next t) :
    (s.port = [] ∧ t = s) ∨
    (∃ c i rest, s.port = .issue c :: rest ∧ decode c = .instr i ∧ exec i { s with port := rest } = .next t) ∨
    (∃ c k rest, s.port = .issue c :: rest ∧ decode c = .error (.reservedCode k) ∧
      t = { s with port := rest, done := s.done ++ [.illegalOp k] }) ∨
    (∃ rest, s.port = .reset :: rest ∧
      t = { s with crcRx := 0x0000#16, crcTx := 0x0000#16, count := 0#32, port := rest }) := by
  cases hp : s.port with
  | nil =>
    rw [step_idle hp] at h
    cases h
    exact .inl ⟨rfl, rfl⟩
  | cons e rest =>
    cases e with
    | reset =>
      rw [step_reset hp] at h
      cases h
      exact .inr (.inr (.inr ⟨rest, rfl, rfl⟩))
    | issueDuring => simp [step, hp, overlapEvent] at h
    | resetDuring => simp [step, hp, resetInFlightEvent] at h
    | issue c =>
      cases hd : decode c with
      | instr i =>
        rw [step_issue hd hp] at h
        exact .inr (.inl ⟨c, i, rest, rfl, hd, h⟩)
      | error e =>
        cases e with
        | reservedCode k =>
          rw [step_reserved hd hp] at h
          cases h
          exact .inr (.inr (.inl ⟨c, k, rest, rfl, hd, rfl⟩))
        | dataTooLong n => simp [step, hp, hd, rejectCommand] at h

/-! What each kind of step does to the bytes consumed since the last boundary. -/

theorem consumedSince_idle {s : State} (b : List Byte) (t : State) (hp : s.port = []) : consumedSince b s t = b := by
  simp [consumedSince, hp]

theorem consumedSince_reset {s : State} (b : List Byte) (t : State) {rest : List HostEvent}
    (hp : s.port = .reset :: rest) : consumedSince b s t = [] := by
  simp [consumedSince, hp]

theorem consumedSince_reserved {s : State} (b : List Byte) (t : State) {c : Command} {k : Byte}
    {rest : List HostEvent} (hd : decode c = .error (.reservedCode k)) (hp : s.port = .issue c :: rest) :
    consumedSince b s t = b := by
  simp [consumedSince, hp, hd]

theorem consumedSince_issue {s : State} (b : List Byte) (t : State) {c : Command} {i : Instr}
    {rest : List HostEvent} (hd : decode c = .instr i) (hp : s.port = .issue c :: rest) :
    consumedSince b s t = if isEndFrame i then [] else b ++ consumedBy i s t := by
  simp [consumedSince, hp, hd]

end Sys2Proof.Machine
end

