-- ==== Sys2Proof/Laws/Operands.lean ====
section
/-! SUPPORT. Big-endian assembly and the bytes of a frame (spec/30_encoding.md R70 to R78), and the comparisons of
spec/43_operation_set_laws.md R170. -/

namespace Sys2Proof.Machine

@[simp] theorem beNat_one (a : Byte) : beNat [a] = a.toNat := by simp [beNat]

@[simp] theorem beNat_two (a b : Byte) : beNat [a, b] = a.toNat * 2 ^ 8 + b.toNat := by simp [beNat]

@[simp] theorem beNat_four (a b c d : Byte) :
    beNat [a, b, c, d] = a.toNat * 2 ^ 24 + b.toNat * 2 ^ 16 + c.toNat * 2 ^ 8 + d.toNat := by
  simp [beNat]; omega

@[simp] theorem beU8_one (a : Byte) : beU8 [a] = a := by simp [beU8]

/-- Two bytes never overflow a 16-bit value (R170). -/
theorem beU16_toNat (a b : Byte) : (beU16 [a, b]).toNat = a.toNat * 2 ^ 8 + b.toNat := by
  have := a.isLt; have := b.isLt
  simp [beU16]; omega

/-- Four bytes never overflow a 32-bit value (R170). -/
theorem beU32_toNat (a b c d : Byte) :
    (beU32 [a, b, c, d]).toNat = a.toNat * 2 ^ 24 + b.toNat * 2 ^ 16 + c.toNat * 2 ^ 8 + d.toNat := by
  have := a.isLt; have := b.isLt; have := c.isLt; have := d.isLt
  simp [beU32]; omega

@[simp] theorem beBytes16_length (v : Half) : (beBytes16 v).length = 2 := rfl

/-- The two bytes of a value denote it. -/
theorem beNat_beBytes16 (v : Half) : beNat (beBytes16 v) = v.toNat := by
  have := v.isLt
  simp [beBytes16, BitVec.extractLsb'_toNat, Nat.shiftRight_eq_div_pow]
  omega

/-- Assembling the bytes of a value gives it back. -/
@[simp] theorem beU16_beBytes16 (v : Half) : beU16 (beBytes16 v) = v := by
  simp [beU16, beNat_beBytes16]

/-- The first two bytes of a sequence that begins with a 16-bit value. -/
@[simp] theorem take_beBytes16 (v : Half) (l : List Byte) : (beBytes16 v ++ l).take 2 = beBytes16 v := rfl

/-- The rest of a sequence that begins with a 16-bit value. -/
@[simp] theorem drop_beBytes16 (v : Half) (l : List Byte) : (beBytes16 v ++ l).drop 2 = l := rfl

/-- A frame, field by field from the front (R70). -/
theorem frameBytes_eq (cmd : Byte) (p : List Byte) :
    frameBytes cmd p = beBytes16 (BitVec.ofNat 16 (frameLength p)) ++
      (cmd :: (p ++ beBytes16 (checksum (frameBody cmd p)))) := by
  simp [frameBytes, frameBody]

@[simp] theorem frameBody_length (cmd : Byte) (p : List Byte) : (frameBody cmd p).length = p.length + 3 := by
  simp [frameBody]; omega

@[simp] theorem frameBytes_length (cmd : Byte) (p : List Byte) : (frameBytes cmd p).length = p.length + 5 := by
  simp [frameBytes]

/-- The length field of a frame whose length it can hold (R71). -/
theorem frameLength_field (p : List Byte) (h : p.length ≤ 65530) :
    (BitVec.ofNat 16 (frameLength p)).toNat = p.length + 5 := by
  simp only [frameLength, Config.frameOverhead, BitVec.toNat_ofNat]; omega

/-- The count after an addition: exact, held at the greatest value (R23). -/
theorem satAdd_toNat (c : Word) (n : Nat) : (satAdd c n).toNat = min (c.toNat + n) 4294967295 := by
  simp only [satAdd, Config.countMax, BitVec.toNat_ofNat]; omega

/-- Two additions to the count are one. -/
theorem satAdd_satAdd (c : Word) (m n : Nat) : satAdd (satAdd c m) n = satAdd c (m + n) := by
  apply BitVec.eq_of_toNat_eq
  simp only [satAdd_toNat]
  omega

@[simp] theorem satAdd_zero (c : Word) : satAdd c 0 = c := by
  apply BitVec.eq_of_toNat_eq
  have := c.isLt
  simp only [satAdd_toNat]
  omega

theorem sizeMatches_iff (c : Word) (l : Half) : sizeMatches c l = true ↔ c.toNat + 2 = l.toNat := by
  simp [sizeMatches, Config.trailerLen]

theorem payloadTooLong_iff (p : List Byte) : payloadTooLong p = true ↔ 65530 < p.length := by
  unfold payloadTooLong Config.maxPayload
  exact decide_eq_true_iff

theorem checksumMatches_iff (a b : Half) : checksumMatches a b = true ↔ a = b := by
  simp [checksumMatches]

end Sys2Proof.Machine
end

