-- ==== Sys2Proof/Laws/State.lean ====
section
/-! SUPPORT. What each named update of the state does to each field, and that the transport's next answers depend on
their own fields only. Provers cite these instead of unfolding an update. -/

namespace Sys2Proof.Machine

variable (s : State)

/-! ### `writeCrc .rx` -/

@[simp] theorem writeCrc_rx_crcRx (v : Half) : (writeCrc .rx v s).crcRx = v := rfl
@[simp] theorem writeCrc_rx_crcTx (v : Half) : (writeCrc .rx v s).crcTx = s.crcTx := rfl

/-! ### `writeCrc .tx` -/

@[simp] theorem writeCrc_tx_crcRx (v : Half) : (writeCrc .tx v s).crcRx = s.crcRx := rfl
@[simp] theorem writeCrc_tx_crcTx (v : Half) : (writeCrc .tx v s).crcTx = v := rfl

/-! ### `writeCrc` on the fields that are no checksum register -/

@[simp] theorem writeCrc_count (sel : CrcSel) (v : Half) : (writeCrc sel v s).count = s.count := by cases sel <;> rfl
@[simp] theorem writeCrc_rx (sel : CrcSel) (v : Half) : (writeCrc sel v s).rx = s.rx := by cases sel <;> rfl
@[simp] theorem writeCrc_tx (sel : CrcSel) (v : Half) : (writeCrc sel v s).tx = s.tx := by cases sel <;> rfl
@[simp] theorem writeCrc_rxDraws (sel : CrcSel) (v : Half) : (writeCrc sel v s).rxDraws = s.rxDraws := by cases sel <;> rfl
@[simp] theorem writeCrc_rxFree (sel : CrcSel) (v : Half) : (writeCrc sel v s).rxFree = s.rxFree := by cases sel <;> rfl
@[simp] theorem writeCrc_txDraws (sel : CrcSel) (v : Half) : (writeCrc sel v s).txDraws = s.txDraws := by cases sel <;> rfl
@[simp] theorem writeCrc_txFree (sel : CrcSel) (v : Half) : (writeCrc sel v s).txFree = s.txFree := by cases sel <;> rfl
@[simp] theorem writeCrc_port (sel : CrcSel) (v : Half) : (writeCrc sel v s).port = s.port := by cases sel <;> rfl
@[simp] theorem writeCrc_done (sel : CrcSel) (v : Half) : (writeCrc sel v s).done = s.done := by cases sel <;> rfl

/-! ### `countUp` -/

@[simp] theorem countUp_crcRx (n : Nat) : (countUp n s).crcRx = s.crcRx := rfl
@[simp] theorem countUp_crcTx (n : Nat) : (countUp n s).crcTx = s.crcTx := rfl
@[simp] theorem countUp_count (n : Nat) : (countUp n s).count = satAdd s.count n := rfl
@[simp] theorem countUp_rx (n : Nat) : (countUp n s).rx = s.rx := rfl
@[simp] theorem countUp_tx (n : Nat) : (countUp n s).tx = s.tx := rfl
@[simp] theorem countUp_rxDraws (n : Nat) : (countUp n s).rxDraws = s.rxDraws := rfl
@[simp] theorem countUp_rxFree (n : Nat) : (countUp n s).rxFree = s.rxFree := rfl
@[simp] theorem countUp_txDraws (n : Nat) : (countUp n s).txDraws = s.txDraws := rfl
@[simp] theorem countUp_txFree (n : Nat) : (countUp n s).txFree = s.txFree := rfl
@[simp] theorem countUp_port (n : Nat) : (countUp n s).port = s.port := rfl
@[simp] theorem countUp_done (n : Nat) : (countUp n s).done = s.done := rfl

/-! ### `boundary` -/

@[simp] theorem boundary_crcRx : (boundary s).crcRx = 0x0000#16 := rfl
@[simp] theorem boundary_crcTx : (boundary s).crcTx = s.crcTx := rfl
@[simp] theorem boundary_count : (boundary s).count = 0#32 := rfl
@[simp] theorem boundary_rx : (boundary s).rx = s.rx := rfl
@[simp] theorem boundary_tx : (boundary s).tx = s.tx := rfl
@[simp] theorem boundary_rxDraws : (boundary s).rxDraws = s.rxDraws := rfl
@[simp] theorem boundary_rxFree : (boundary s).rxFree = s.rxFree := rfl
@[simp] theorem boundary_txDraws : (boundary s).txDraws = s.txDraws := rfl
@[simp] theorem boundary_txFree : (boundary s).txFree = s.txFree := rfl
@[simp] theorem boundary_port : (boundary s).port = s.port := rfl
@[simp] theorem boundary_done : (boundary s).done = s.done := rfl

/-! ### `hwReset` -/

@[simp] theorem hwReset_crcRx : (hwReset s).crcRx = 0x0000#16 := rfl
@[simp] theorem hwReset_crcTx : (hwReset s).crcTx = 0x0000#16 := rfl
@[simp] theorem hwReset_count : (hwReset s).count = 0#32 := rfl
@[simp] theorem hwReset_rx : (hwReset s).rx = s.rx := rfl
@[simp] theorem hwReset_tx : (hwReset s).tx = s.tx := rfl
@[simp] theorem hwReset_rxDraws : (hwReset s).rxDraws = s.rxDraws := rfl
@[simp] theorem hwReset_rxFree : (hwReset s).rxFree = s.rxFree := rfl
@[simp] theorem hwReset_txDraws : (hwReset s).txDraws = s.txDraws := rfl
@[simp] theorem hwReset_txFree : (hwReset s).txFree = s.txFree := rfl
@[simp] theorem hwReset_port : (hwReset s).port = s.port := rfl
@[simp] theorem hwReset_done : (hwReset s).done = s.done := rfl

/-! ### `complete` -/

@[simp] theorem complete_crcRx (c : Completion) : (complete c s).crcRx = s.crcRx := rfl
@[simp] theorem complete_crcTx (c : Completion) : (complete c s).crcTx = s.crcTx := rfl
@[simp] theorem complete_count (c : Completion) : (complete c s).count = s.count := rfl
@[simp] theorem complete_rx (c : Completion) : (complete c s).rx = s.rx := rfl
@[simp] theorem complete_tx (c : Completion) : (complete c s).tx = s.tx := rfl
@[simp] theorem complete_rxDraws (c : Completion) : (complete c s).rxDraws = s.rxDraws := rfl
@[simp] theorem complete_rxFree (c : Completion) : (complete c s).rxFree = s.rxFree := rfl
@[simp] theorem complete_txDraws (c : Completion) : (complete c s).txDraws = s.txDraws := rfl
@[simp] theorem complete_txFree (c : Completion) : (complete c s).txFree = s.txFree := rfl
@[simp] theorem complete_port (c : Completion) : (complete c s).port = s.port := rfl
@[simp] theorem complete_done (c : Completion) : (complete c s).done = s.done ++ [c] := rfl

/-! ### `raise` -/

@[simp] theorem raise_crcRx (c : Completion) : (raise c s).crcRx = s.crcRx := rfl
@[simp] theorem raise_crcTx (c : Completion) : (raise c s).crcTx = s.crcTx := rfl
@[simp] theorem raise_count (c : Completion) : (raise c s).count = s.count := rfl
@[simp] theorem raise_rx (c : Completion) : (raise c s).rx = s.rx := rfl
@[simp] theorem raise_tx (c : Completion) : (raise c s).tx = s.tx := rfl
@[simp] theorem raise_rxDraws (c : Completion) : (raise c s).rxDraws = s.rxDraws := rfl
@[simp] theorem raise_rxFree (c : Completion) : (raise c s).rxFree = s.rxFree := rfl
@[simp] theorem raise_txDraws (c : Completion) : (raise c s).txDraws = s.txDraws := rfl
@[simp] theorem raise_txFree (c : Completion) : (raise c s).txFree = s.txFree := rfl
@[simp] theorem raise_port (c : Completion) : (raise c s).port = s.port := rfl
@[simp] theorem raise_done (c : Completion) : (raise c s).done = s.done ++ [c] := rfl

/-! ### `doneOk` -/

@[simp] theorem doneOk_crcRx (v : Value) : (doneOk v s).crcRx = s.crcRx := rfl
@[simp] theorem doneOk_crcTx (v : Value) : (doneOk v s).crcTx = s.crcTx := rfl
@[simp] theorem doneOk_count (v : Value) : (doneOk v s).count = s.count := rfl
@[simp] theorem doneOk_rx (v : Value) : (doneOk v s).rx = s.rx := rfl
@[simp] theorem doneOk_tx (v : Value) : (doneOk v s).tx = s.tx := rfl
@[simp] theorem doneOk_rxDraws (v : Value) : (doneOk v s).rxDraws = s.rxDraws := rfl
@[simp] theorem doneOk_rxFree (v : Value) : (doneOk v s).rxFree = s.rxFree := rfl
@[simp] theorem doneOk_txDraws (v : Value) : (doneOk v s).txDraws = s.txDraws := rfl
@[simp] theorem doneOk_txFree (v : Value) : (doneOk v s).txFree = s.txFree := rfl
@[simp] theorem doneOk_port (v : Value) : (doneOk v s).port = s.port := rfl
@[simp] theorem doneOk_done (v : Value) : (doneOk v s).done = s.done ++ [.ok v] := rfl

/-! ### `dropRx` -/

@[simp] theorem dropRx_crcRx (k : Nat) : (dropRx k s).crcRx = s.crcRx := rfl
@[simp] theorem dropRx_crcTx (k : Nat) : (dropRx k s).crcTx = s.crcTx := rfl
@[simp] theorem dropRx_count (k : Nat) : (dropRx k s).count = s.count := rfl
@[simp] theorem dropRx_rx (k : Nat) : (dropRx k s).rx = s.rx.drop k := rfl
@[simp] theorem dropRx_tx (k : Nat) : (dropRx k s).tx = s.tx := rfl
@[simp] theorem dropRx_rxDraws (k : Nat) : (dropRx k s).rxDraws = s.rxDraws := rfl
@[simp] theorem dropRx_rxFree (k : Nat) : (dropRx k s).rxFree = s.rxFree := rfl
@[simp] theorem dropRx_txDraws (k : Nat) : (dropRx k s).txDraws = s.txDraws := rfl
@[simp] theorem dropRx_txFree (k : Nat) : (dropRx k s).txFree = s.txFree := rfl
@[simp] theorem dropRx_port (k : Nat) : (dropRx k s).port = s.port := rfl
@[simp] theorem dropRx_done (k : Nat) : (dropRx k s).done = s.done := rfl

/-! ### `appendTx` -/

@[simp] theorem appendTx_crcRx (b : List Byte) : (appendTx b s).crcRx = s.crcRx := rfl
@[simp] theorem appendTx_crcTx (b : List Byte) : (appendTx b s).crcTx = s.crcTx := rfl
@[simp] theorem appendTx_count (b : List Byte) : (appendTx b s).count = s.count := rfl
@[simp] theorem appendTx_rx (b : List Byte) : (appendTx b s).rx = s.rx := rfl
@[simp] theorem appendTx_tx (b : List Byte) : (appendTx b s).tx = s.tx ++ b := rfl
@[simp] theorem appendTx_rxDraws (b : List Byte) : (appendTx b s).rxDraws = s.rxDraws := rfl
@[simp] theorem appendTx_rxFree (b : List Byte) : (appendTx b s).rxFree = s.rxFree := rfl
@[simp] theorem appendTx_txDraws (b : List Byte) : (appendTx b s).txDraws = s.txDraws := rfl
@[simp] theorem appendTx_txFree (b : List Byte) : (appendTx b s).txFree = s.txFree := rfl
@[simp] theorem appendTx_port (b : List Byte) : (appendTx b s).port = s.port := rfl
@[simp] theorem appendTx_done (b : List Byte) : (appendTx b s).done = s.done := rfl

/-! ### `popPort` -/

@[simp] theorem popPort_crcRx : (popPort s).crcRx = s.crcRx := rfl
@[simp] theorem popPort_crcTx : (popPort s).crcTx = s.crcTx := rfl
@[simp] theorem popPort_count : (popPort s).count = s.count := rfl
@[simp] theorem popPort_rx : (popPort s).rx = s.rx := rfl
@[simp] theorem popPort_tx : (popPort s).tx = s.tx := rfl
@[simp] theorem popPort_rxDraws : (popPort s).rxDraws = s.rxDraws := rfl
@[simp] theorem popPort_rxFree : (popPort s).rxFree = s.rxFree := rfl
@[simp] theorem popPort_txDraws : (popPort s).txDraws = s.txDraws := rfl
@[simp] theorem popPort_txFree : (popPort s).txFree = s.txFree := rfl
@[simp] theorem popPort_port : (popPort s).port = s.port.tail := rfl
@[simp] theorem popPort_done : (popPort s).done = s.done := rfl

/-! ### `useRx` -/

@[simp] theorem useRx_crcRx : (s.useRx).crcRx = s.crcRx := by unfold State.useRx; split <;> rfl
@[simp] theorem useRx_crcTx : (s.useRx).crcTx = s.crcTx := by unfold State.useRx; split <;> rfl
@[simp] theorem useRx_count : (s.useRx).count = s.count := by unfold State.useRx; split <;> rfl
@[simp] theorem useRx_rx : (s.useRx).rx = s.rx := by unfold State.useRx; split <;> rfl
@[simp] theorem useRx_tx : (s.useRx).tx = s.tx := by unfold State.useRx; split <;> rfl
@[simp] theorem useRx_txDraws : (s.useRx).txDraws = s.txDraws := by unfold State.useRx; split <;> rfl
@[simp] theorem useRx_txFree : (s.useRx).txFree = s.txFree := by unfold State.useRx; split <;> rfl
@[simp] theorem useRx_port : (s.useRx).port = s.port := by unfold State.useRx; split <;> rfl
@[simp] theorem useRx_done : (s.useRx).done = s.done := by unfold State.useRx; split <;> rfl

/-! ### `useTx` -/

@[simp] theorem useTx_crcRx : (s.useTx).crcRx = s.crcRx := by unfold State.useTx; split <;> rfl
@[simp] theorem useTx_crcTx : (s.useTx).crcTx = s.crcTx := by unfold State.useTx; split <;> rfl
@[simp] theorem useTx_count : (s.useTx).count = s.count := by unfold State.useTx; split <;> rfl
@[simp] theorem useTx_rx : (s.useTx).rx = s.rx := by unfold State.useTx; split <;> rfl
@[simp] theorem useTx_tx : (s.useTx).tx = s.tx := by unfold State.useTx; split <;> rfl
@[simp] theorem useTx_rxDraws : (s.useTx).rxDraws = s.rxDraws := by unfold State.useTx; split <;> rfl
@[simp] theorem useTx_rxFree : (s.useTx).rxFree = s.rxFree := by unfold State.useTx; split <;> rfl
@[simp] theorem useTx_port : (s.useTx).port = s.port := by unfold State.useTx; split <;> rfl
@[simp] theorem useTx_done : (s.useTx).done = s.done := by unfold State.useTx; split <;> rfl

/-! ### Reads of the checksum registers -/

@[simp] theorem readCrc_rx : readCrc .rx s = s.crcRx := rfl
@[simp] theorem readCrc_tx : readCrc .tx s = s.crcTx := rfl

/-! ### The transport's next answers -/

/-- Using up an answer to `RxTake` changes what is left of the answers and nothing else. -/
theorem useRx_eq : s.useRx = { s with rxDraws := s.useRx.rxDraws, rxFree := s.useRx.rxFree } := by
  unfold State.useRx; split <;> rfl

/-- Using up an answer to `TxPut` changes what is left of the answers and nothing else. -/
theorem useTx_eq : s.useTx = { s with txDraws := s.useTx.txDraws, txFree := s.useTx.txFree } := by
  unfold State.useTx; split <;> rfl

theorem useRx_rxDraws : s.useRx.rxDraws = s.rxDraws.tail := by
  unfold State.useRx; split <;> simp_all

theorem useTx_txDraws : s.useTx.txDraws = s.txDraws.tail := by
  unfold State.useTx; split <;> simp_all

/-- The answer to the next `RxTake`, and what is left of the answers, depend on the RX answers only. -/
theorem nextRx_congr {s t : State} (h : s.rxDraws = t.rxDraws) (h' : s.rxFree = t.rxFree) :
    s.nextRx = t.nextRx ∧ s.useRx.rxDraws = t.useRx.rxDraws ∧ s.useRx.rxFree = t.useRx.rxFree := by
  unfold State.nextRx State.useRx
  rw [← h, ← h']
  cases s.rxDraws <;> simp [h']

/-- The answer to the next `TxPut`, and what is left of the answers, depend on the TX answers only. -/
theorem nextTx_congr {s t : State} (h : s.txDraws = t.txDraws) (h' : s.txFree = t.txFree) :
    s.nextTx = t.nextTx ∧ s.useTx.txDraws = t.useTx.txDraws ∧ s.useTx.txFree = t.useTx.txFree := by
  unfold State.nextTx State.useTx
  rw [← h, ← h']
  cases s.txDraws <;> simp [h']

@[simp] theorem nextRx_useTx : s.useTx.nextRx = s.nextRx := (nextRx_congr (by simp) (by simp)).1
@[simp] theorem nextTx_useRx : s.useRx.nextTx = s.nextTx := (nextTx_congr (by simp) (by simp)).1
@[simp] theorem nextTx_writeCrc (sel : CrcSel) (v : Half) : (writeCrc sel v s).nextTx = s.nextTx := by
  cases sel <;> rfl
@[simp] theorem nextRx_writeCrc (sel : CrcSel) (v : Half) : (writeCrc sel v s).nextRx = s.nextRx := by
  cases sel <;> rfl

/-- A state in which no answer is listed takes the free one. -/
theorem nextRx_of_nil (h : s.rxDraws = []) : s.nextRx = Config.rxDraw s.rxFree := by
  unfold State.nextRx; rw [h]

theorem nextTx_of_nil (h : s.txDraws = []) : s.nextTx = Config.txDraw s.txFree := by
  unfold State.nextTx; rw [h]

end Sys2Proof.Machine
end

