-- ==== Sys2Proof/Laws/Ops.lean ====
section
/-! SUPPORT. What the shared operations do, each said once: `RxTake`, `TxPut` and `read_n` deliver or fail, and the
state of each case is written out (spec/20_memory.md R42, R43; spec/41_byte_reader.md R120, R122). -/

namespace Sys2Proof.Machine

/-- `RxTake(n)` delivers: the transport answers `Ok` and `n` bytes are on the stream. -/
theorem rxAnswer_ok {n : Nat} {s : State} (h : s.nextRx.answer = .ok) (hl : n ≤ s.rx.length) :
    rxAnswer n s = .ok (s.rx.take n) := by
  simp [rxAnswer, h, hl]

theorem rxAfter_ok {n : Nat} {s : State} (h : s.nextRx.answer = .ok) (hl : n ≤ s.rx.length) :
    rxAfter n s = dropRx n s.useRx := by
  simp [rxAfter, rxAnswer_ok h hl]

/-- `RxTake(n)` fails otherwise, and loses fewer than `n` bytes (R42). -/
theorem rxAnswer_fail {n : Nat} {s : State} (h : s.nextRx.answer = .ok → s.rx.length < n) :
    rxAnswer n s = if s.nextRx.answer = .io then .io else .timeout := by
  unfold rxAnswer
  cases ha : s.nextRx.answer <;> simp_all

theorem rxAfter_fail {n : Nat} {s : State} (h : s.nextRx.answer = .ok → s.rx.length < n) :
    rxAfter n s = dropRx (lostBytes n s.nextRx) s.useRx := by
  unfold rxAfter
  rw [rxAnswer_fail h]
  by_cases ha : s.nextRx.answer = .io <;> simp [ha]

theorem lostBytes_lt {n : Nat} (hn : 0 < n) (d : RxDraw) : lostBytes n d < n := by
  unfold lostBytes; omega

/-- A call of `RxTake` either delivers or fails. -/
theorem rx_delivers_or_fails (n : Nat) (s : State) :
    (s.nextRx.answer = .ok ∧ n ≤ s.rx.length) ∨ (s.nextRx.answer = .ok → s.rx.length < n) := by
  by_cases h : s.nextRx.answer = .ok <;> by_cases hl : n ≤ s.rx.length <;> simp_all

/-- `read_n` that delivers (R120). -/
theorem readN_ok {n : Nat} {s : State} (f : List Byte → Completion) (h : s.nextRx.answer = .ok)
    (hl : n ≤ s.rx.length) :
    readN n f s = { s with
      rxDraws := s.useRx.rxDraws, rxFree := s.useRx.rxFree,
      rx := s.rx.drop n, count := satAdd s.count n, crcRx := crcUpdate s.crcRx (s.rx.take n),
      done := s.done ++ [f (s.rx.take n)] } := by
  rw [readN, rxAnswer_ok h hl, rxAfter_ok h hl, useRx_eq]
  rfl

/-- `read_n` that fails (R122). -/
theorem readN_fail {n : Nat} {s : State} (f : List Byte → Completion)
    (h : s.nextRx.answer = .ok → s.rx.length < n) :
    readN n f s = { s with
      rxDraws := s.useRx.rxDraws, rxFree := s.useRx.rxFree,
      rx := s.rx.drop (lostBytes n s.nextRx), done := s.done ++ [transportError s] } := by
  unfold readN
  rw [rxAnswer_fail h, rxAfter_fail h]
  rw [useRx_eq]
  by_cases ha : s.nextRx.answer = .io <;> simp [ha, raise, complete, dropRx, transportError]

/-- What `WR.FRAME` writes to `CRC[1]` first has no part in the transport's answer. -/
theorem useTx_writeCrc (v : Half) (s : State) : (writeCrc .tx v s).useTx = writeCrc .tx v s.useTx := by
  unfold State.useTx writeCrc; dsimp only; split <;> rfl

/-- `WR.FRAME`'s write that the transport accepts whole (R150). -/
theorem putFrame_ok {s : State} (cmd : Byte) (p : List Byte) (h : s.nextTx.answer = .ok) :
    putFrame cmd p s = { s with
      txDraws := s.useTx.txDraws, txFree := s.useTx.txFree,
      crcTx := checksum (frameBody cmd p), tx := s.tx ++ frameBytes cmd p, done := s.done ++ [.ok .none] } := by
  simp only [putFrame, putCompletion, txAfter, txAccepted, nextTx_writeCrc, h, useTx_writeCrc]
  rw [useTx_eq]
  rfl

/-- `WR.FRAME`'s write that fails (R153). -/
theorem putFrame_io {s : State} (cmd : Byte) (p : List Byte) (h : s.nextTx.answer = .io) :
    putFrame cmd p s = { s with
      txDraws := s.useTx.txDraws, txFree := s.useTx.txFree,
      crcTx := checksum (frameBody cmd p),
      tx := s.tx ++ (frameBytes cmd p).take s.nextTx.accepted, done := s.done ++ [.transportIo] } := by
  simp only [putFrame, putCompletion, txAfter, txAccepted, nextTx_writeCrc, h, useTx_writeCrc]
  rw [useTx_eq]
  rfl

end Sys2Proof.Machine
end

