-- ==== Sys2Proof/Laws/Exec.lean ====
section
/-! SUPPORT. What `exec` can do, said once for each shape of operation: the five reads are one shape, `WR.FRAME` and
`END.FRAME` have the cases of their rules, and every operation answers a next state with one completion more
(spec/60_exceptions.md R180, R193). -/

namespace Sys2Proof.Machine

/-- The completion a reader operation makes of the bytes it took (R77, R127). -/
def readCompletion : Instr → List Byte → Completion
  | .rdU8, b         => .ok (.u8 (beU8 b))
  | .rdU16, b        => .ok (.u16 (beU16 b))
  | .rdU32, b        => .ok (.u32 (beU32 b))
  | .rdF32, b        => .ok (.f32 (f32OfBits (beU32 b)))
  | .rdBool, b       => boolCompletion (beU8 b)
  | .crcInit _, _    => .ok .none
  | .crcUpd _ _, _   => .ok .none
  | .crcFin _, _     => .ok .none
  | .wrFrame _ _, _  => .ok .none
  | .endFrame _, _   => .ok .none

/-- A reader operation is `read_n` at its width. -/
theorem exec_reader {i : Instr} (h : isReader i = true) (s : State) :
    exec i s = .next (readN (rxWidth i) (readCompletion i) s) := by
  cases i <;> first | rfl | simp [isReader] at h

theorem rxWidth_pos {i : Instr} (h : isReader i = true) : 0 < rxWidth i := by
  cases i <;> simp_all [isReader, rxWidth]

/-- Bytes that arrived complete with `Ok` or `ParseError` (R127). -/
theorem boolCompletion_consumed (b : Byte) : (boolCompletion b).consumed = true := by
  unfold boolCompletion
  split
  · rfl
  · split <;> rfl

/-- The boolean check's outcomes (R127). -/
theorem boolCompletion_cases (b : Byte) :
    (∃ v, boolCompletion b = .ok (.bool v)) ∨ boolCompletion b = .parseError b := by
  unfold boolCompletion
  split
  · exact .inl ⟨_, rfl⟩
  · split
    · exact .inl ⟨_, rfl⟩
    · exact .inr rfl

/-- What a close reports of a trailer that arrived (R154). -/
theorem closeCompletion_cases (l computed : Half) (n : Word) (b : List Byte) :
    closeCompletion l computed n (.ok b) = .sizeMismatch l n ∧ n.toNat + 2 ≠ l.toNat ∨
    closeCompletion l computed n (.ok b) = .checksumMismatch computed (beU16 b) ∧
      n.toNat + 2 = l.toNat ∧ computed ≠ beU16 b ∨
    closeCompletion l computed n (.ok b) = .ok .none ∧ n.toNat + 2 = l.toNat ∧ computed = beU16 b := by
  by_cases h : n.toNat + 2 = l.toNat <;> by_cases h' : computed = beU16 b <;>
    simp [closeCompletion, sizeMatches, checksumMatches, Config.trailerLen, h, h']

/-- A failed `RxTake` completes with one of the transport's two errors (R122). -/
theorem transportError_cases (s : State) :
    transportError s = .transportIo ∨ transportError s = .transportTimeout := by
  unfold transportError
  split
  · exact .inl rfl
  · exact .inr rfl

theorem readCompletion_consumed (i : Instr) (b : List Byte) : (readCompletion i b).consumed = true := by
  cases i <;> first | rfl | exact boolCompletion_consumed _

theorem transportError_consumed (s : State) : (transportError s).consumed = false := by
  unfold transportError; split <;> rfl

/-- A reader operation whose bytes arrive (R120). -/
theorem exec_reader_ok {i : Instr} {s : State} (h : isReader i = true) (ha : s.nextRx.answer = .ok)
    (hl : rxWidth i ≤ s.rx.length) :
    exec i s = .next { s with
      rxDraws := s.useRx.rxDraws, rxFree := s.useRx.rxFree,
      rx := s.rx.drop (rxWidth i), count := satAdd s.count (rxWidth i),
      crcRx := crcUpdate s.crcRx (s.rx.take (rxWidth i)),
      done := s.done ++ [readCompletion i (s.rx.take (rxWidth i))] } := by
  rw [exec_reader h, readN_ok _ ha hl]

/-- A reader operation whose bytes do not arrive (R122). -/
theorem exec_reader_fail {i : Instr} {s : State} (h : isReader i = true)
    (hf : s.nextRx.answer = .ok → s.rx.length < rxWidth i) :
    exec i s = .next { s with
      rxDraws := s.useRx.rxDraws, rxFree := s.useRx.rxFree,
      rx := s.rx.drop (lostBytes (rxWidth i) s.nextRx), done := s.done ++ [transportError s] } := by
  rw [exec_reader h, readN_fail _ hf]

/-- `WR.FRAME` with a payload too long for the length field (R152). -/
theorem exec_wrFrame_long {s : State} (cmd : Byte) {p : List Byte} (h : 65530 < p.length) :
    exec (.wrFrame cmd p) s = .next { s with done := s.done ++ [.lengthOverflow p.length] } := by
  simp [exec, execWrFrame, (payloadTooLong_iff p).2 h, raise, complete]

/-- `WR.FRAME` accepted whole (R150). -/
theorem exec_wrFrame_ok {s : State} (cmd : Byte) {p : List Byte} (h : p.length ≤ 65530)
    (ha : s.nextTx.answer = .ok) :
    exec (.wrFrame cmd p) s = .next { s with
      txDraws := s.useTx.txDraws, txFree := s.useTx.txFree,
      crcTx := checksum (frameBody cmd p), tx := s.tx ++ frameBytes cmd p, done := s.done ++ [.ok .none] } := by
  have hp : ¬ payloadTooLong p = true := by rw [payloadTooLong_iff]; omega
  simp only [exec, execWrFrame, if_neg hp, putFrame_ok cmd p ha]

/-- `WR.FRAME` whose write fails (R153). -/
theorem exec_wrFrame_io {s : State} (cmd : Byte) {p : List Byte} (h : p.length ≤ 65530)
    (ha : s.nextTx.answer = .io) :
    exec (.wrFrame cmd p) s = .next { s with
      txDraws := s.useTx.txDraws, txFree := s.useTx.txFree,
      crcTx := checksum (frameBody cmd p),
      tx := s.tx ++ (frameBytes cmd p).take s.nextTx.accepted, done := s.done ++ [.transportIo] } := by
  have hp : ¬ payloadTooLong p = true := by rw [payloadTooLong_iff]; omega
  simp only [exec, execWrFrame, if_neg hp, putFrame_io cmd p ha]

/-- `END.FRAME` whose trailer arrives (R154). -/
theorem exec_endFrame_ok {s : State} (explen : Half) (ha : s.nextRx.answer = .ok) (hl : 2 ≤ s.rx.length) :
    exec (.endFrame explen) s = .next { s with
      rxDraws := s.useRx.rxDraws, rxFree := s.useRx.rxFree,
      rx := s.rx.drop 2, crcRx := 0x0000#16, count := 0#32,
      done := s.done ++ [closeCompletion explen s.crcRx s.count (.ok (s.rx.take 2))] } := by
  rw [exec, execEndFrame, rxAnswer_ok ha hl, rxAfter_ok ha hl, useRx_eq]
  rfl

/-- `END.FRAME` whose trailer does not arrive (R161). -/
theorem exec_endFrame_fail {s : State} (explen : Half) (hf : s.nextRx.answer = .ok → s.rx.length < 2) :
    exec (.endFrame explen) s = .next { s with
      rxDraws := s.useRx.rxDraws, rxFree := s.useRx.rxFree,
      rx := s.rx.drop (lostBytes 2 s.nextRx), crcRx := 0x0000#16, count := 0#32,
      done := s.done ++ [transportError s] } := by
  rw [exec, execEndFrame, rxAnswer_fail hf, rxAfter_fail hf, useRx_eq]
  by_cases h : s.nextRx.answer = .io <;>
    simp [h, complete, boundary, dropRx, transportError, closeCompletion]

/-- Every operation answers a next state (R16, R180). -/
theorem exec_next (i : Instr) (s : State) : ∃ t, exec i s = .next t := by
  cases i <;> exact ⟨_, rfl⟩

/-- Every operation has one completion more, leaves the host's events, takes from the front of RX only and appends to
TX only (R53, R180). -/
theorem exec_forward {i : Instr} {s t : State} (h : exec i s = .next t) :
    (∃ x, t.done = s.done ++ [x]) ∧ t.port = s.port ∧ (∃ k, t.rx = s.rx.drop k) ∧ s.tx <+: t.tx := by
  by_cases hr : isReader i = true
  · rcases rx_delivers_or_fails (rxWidth i) s with ⟨ha, hl⟩ | hf
    · rw [exec_reader_ok hr ha hl] at h
      cases h
      exact ⟨⟨_, rfl⟩, by simp, ⟨_, rfl⟩, by simp⟩
    · rw [exec_reader_fail hr hf] at h
      cases h
      exact ⟨⟨_, rfl⟩, by simp, ⟨_, rfl⟩, by simp⟩
  · cases i with
    | crcInit sel => cases sel <;> (cases h; exact ⟨⟨_, rfl⟩, rfl, ⟨0, rfl⟩, List.prefix_rfl⟩)
    | crcUpd sel d => cases sel <;> (cases h; exact ⟨⟨_, rfl⟩, rfl, ⟨0, rfl⟩, List.prefix_rfl⟩)
    | crcFin sel => cases h; exact ⟨⟨_, rfl⟩, rfl, ⟨0, rfl⟩, List.prefix_rfl⟩
    | wrFrame cmd p =>
      by_cases hp : p.length ≤ 65530
      · cases ha : s.nextTx.answer with
        | ok =>
          rw [exec_wrFrame_ok cmd hp ha] at h
          cases h
          exact ⟨⟨_, rfl⟩, by simp, ⟨0, by simp⟩, List.prefix_append _ _⟩
        | io =>
          rw [exec_wrFrame_io cmd hp ha] at h
          cases h
          exact ⟨⟨_, rfl⟩, by simp, ⟨0, by simp⟩, List.prefix_append _ _⟩
      · rw [exec_wrFrame_long cmd (by omega)] at h
        cases h
        exact ⟨⟨_, rfl⟩, rfl, ⟨0, rfl⟩, List.prefix_rfl⟩
    | endFrame l =>
      rcases rx_delivers_or_fails 2 s with ⟨ha, hl⟩ | hf
      · rw [exec_endFrame_ok l ha hl] at h
        cases h
        exact ⟨⟨_, rfl⟩, by simp, ⟨_, rfl⟩, by simp⟩
      · rw [exec_endFrame_fail l hf] at h
        cases h
        exact ⟨⟨_, rfl⟩, by simp, ⟨_, rfl⟩, by simp⟩
    | rdU8 => exact absurd rfl hr
    | rdU16 => exact absurd rfl hr
    | rdU32 => exact absurd rfl hr
    | rdF32 => exact absurd rfl hr
    | rdBool => exact absurd rfl hr

/-- A list of operations runs to its end. -/
theorem execAll_next (ops : List Instr) (s : State) : ∃ t, execAll ops s = .next t := by
  induction ops generalizing s with
  | nil => exact ⟨s, rfl⟩
  | cons i is ih =>
    obtain ⟨t, ht⟩ := exec_next i s
    obtain ⟨u, hu⟩ := ih t
    exact ⟨u, by simp [execAll, ht, hu]⟩

@[simp] theorem execAll_nil (s : State) : execAll [] s = .next s := rfl

/-- One operation of a list, then the rest. -/
theorem execAll_cons {i : Instr} {s t : State} (h : exec i s = .next t) (is : List Instr) :
    execAll (i :: is) s = execAll is t := by
  simp [execAll, h]

/-- A list in two parts. -/
theorem execAll_append {ops : List Instr} {s t : State} (h : execAll ops s = .next t) (more : List Instr) :
    execAll (ops ++ more) s = execAll more t := by
  induction ops generalizing s with
  | nil => cases h; rfl
  | cons i is ih =>
    obtain ⟨u, hu⟩ := exec_next i s
    rw [execAll_cons hu] at h
    rw [List.cons_append, execAll_cons hu]
    exact ih h

/-- `rxOk` looks at the answers only. -/
theorem rxOk_congr {k : Nat} {s t : State} (h : s.rxDraws = t.rxDraws) (h' : s.rxFree = t.rxFree) :
    rxOk k s ↔ rxOk k t := by
  induction k generalizing s t with
  | zero => exact Iff.rfl
  | succ k ih =>
    obtain ⟨h1, h2, h3⟩ := nextRx_congr h h'
    simp only [rxOk, h1, ih h2 h3]

theorem rxOk_mono {k j : Nat} {s : State} (h : rxOk (k + j) s) : rxOk k s := by
  induction k generalizing s with
  | zero => trivial
  | succ k ih => rw [show k + 1 + j = (k + j) + 1 by omega] at h; exact ⟨h.1, ih h.2⟩

/-- A read that delivers consumed its width (R25). -/
theorem consumedBy_ok {i : Instr} {s t : State} (h : isReader i = true) (ha : s.nextRx.answer = .ok)
    (hl : rxWidth i ≤ s.rx.length) (he : exec i s = .next t) : consumedBy i s t = s.rx.take (rxWidth i) := by
  rw [exec_reader_ok h ha hl] at he
  cases he
  simp [consumedBy, h, readCompletion_consumed]

/-- A read that fails consumed nothing (R25). -/
theorem consumedBy_fail {i : Instr} {s t : State} (h : isReader i = true)
    (hf : s.nextRx.answer = .ok → s.rx.length < rxWidth i) (he : exec i s = .next t) : consumedBy i s t = [] := by
  rw [exec_reader_fail h hf] at he
  cases he
  simp [consumedBy, h, transportError_consumed]

/-- What a read does to the registers, delivered or failed, in terms of the bytes it consumed (R120, R122). -/
theorem exec_reader_registers {i : Instr} {s t : State} (h : isReader i = true) (he : exec i s = .next t) :
    t.crcRx = crcUpdate s.crcRx (consumedBy i s t) ∧ t.count = satAdd s.count (consumedBy i s t).length ∧
    t.crcTx = s.crcTx ∧ sameWriteSide t s := by
  rcases rx_delivers_or_fails (rxWidth i) s with ⟨ha, hl⟩ | hf
  · rw [consumedBy_ok h ha hl he]
    rw [exec_reader_ok h ha hl] at he
    cases he
    simp [hl, sameWriteSide]
  · rw [consumedBy_fail h hf he]
    rw [exec_reader_fail h hf] at he
    cases he
    simp [sameWriteSide]

/-- What a close does to the registers, whatever it reports (R155). -/
theorem exec_endFrame_registers {l : Half} {s t : State} (he : exec (.endFrame l) s = .next t) :
    t.crcRx = 0x0000#16 ∧ t.count = 0#32 ∧ t.crcTx = s.crcTx ∧ sameWriteSide t s := by
  rcases rx_delivers_or_fails 2 s with ⟨ha, hl⟩ | hf
  · rw [exec_endFrame_ok l ha hl] at he
    cases he
    simp [sameWriteSide]
  · rw [exec_endFrame_fail l hf] at he
    cases he
    simp [sameWriteSide]

/-- What `WR.FRAME` does to the registers, in all its cases (R150 to R153). -/
theorem exec_wrFrame_registers {c : Byte} {p : List Byte} {s t : State} (he : exec (.wrFrame c p) s = .next t) :
    sameReadSide t s ∧ (p.length ≤ 65530 → t.crcTx = checksum (frameBody c p)) ∧
    (65530 < p.length → t = { s with done := s.done ++ [.lengthOverflow p.length] }) := by
  by_cases hp : p.length ≤ 65530
  · cases ha : s.nextTx.answer with
    | ok =>
      rw [exec_wrFrame_ok c hp ha] at he
      cases he
      exact ⟨⟨rfl, rfl, rfl, rfl, rfl⟩, fun _ => rfl, fun h => absurd h (by omega)⟩
    | io =>
      rw [exec_wrFrame_io c hp ha] at he
      cases he
      exact ⟨⟨rfl, rfl, rfl, rfl, rfl⟩, fun _ => rfl, fun h => absurd h (by omega)⟩
  · rw [exec_wrFrame_long c (by omega)] at he
    cases he
    exact ⟨⟨rfl, rfl, rfl, rfl, rfl⟩, fun h => absurd h hp, fun _ => rfl⟩

end Sys2Proof.Machine
end

