-- ==== Sys2Proof/Laws/PerInstr.lean ====
section
/-! SUPPORT. A statement about every operation, one lemma for each constructor: its encoding selects its own row of
spec/30_encoding.md R80 and no other ("The rows do not overlap"). -/

open Sys2Proof Sys2Proof.Machine

/-- The operation's code selects the row of its mnemonic, and only that row. -/
def Sys2Proof.Laws.OwnRow.Statement (i : Instr) : Prop :=
  ∃ r ∈ opRows, r.mnemonic = i.mnemonic ∧ ∀ q ∈ opRows, q.selects (encode i).code = true ↔ q = r

theorem Sys2Proof.Laws.OwnRow.crcInit (sel : CrcSel) : Sys2Proof.Laws.OwnRow.Statement (.crcInit sel) :=
  ⟨⟨"CRC.INIT", 0x10#8, 0xFE#8⟩, by decide, rfl, by cases sel <;> decide⟩

theorem Sys2Proof.Laws.OwnRow.crcUpd (sel : CrcSel) (data : List Byte) :
    Sys2Proof.Laws.OwnRow.Statement (.crcUpd sel data) :=
  ⟨⟨"CRC.UPD", 0x12#8, 0xFE#8⟩, by decide, rfl, by
    cases sel <;> simp only [encode] <;> decide⟩

theorem Sys2Proof.Laws.OwnRow.crcFin (sel : CrcSel) : Sys2Proof.Laws.OwnRow.Statement (.crcFin sel) :=
  ⟨⟨"CRC.FIN", 0x14#8, 0xFE#8⟩, by decide, rfl, by cases sel <;> decide⟩

theorem Sys2Proof.Laws.OwnRow.rdU8 : Sys2Proof.Laws.OwnRow.Statement .rdU8 :=
  ⟨⟨"RD.U8", 0x20#8, 0xFF#8⟩, by decide, rfl, by decide⟩

theorem Sys2Proof.Laws.OwnRow.rdU16 : Sys2Proof.Laws.OwnRow.Statement .rdU16 :=
  ⟨⟨"RD.U16", 0x21#8, 0xFF#8⟩, by decide, rfl, by decide⟩

theorem Sys2Proof.Laws.OwnRow.rdU32 : Sys2Proof.Laws.OwnRow.Statement .rdU32 :=
  ⟨⟨"RD.U32", 0x22#8, 0xFF#8⟩, by decide, rfl, by decide⟩

theorem Sys2Proof.Laws.OwnRow.rdF32 : Sys2Proof.Laws.OwnRow.Statement .rdF32 :=
  ⟨⟨"RD.F32", 0x23#8, 0xFF#8⟩, by decide, rfl, by decide⟩

theorem Sys2Proof.Laws.OwnRow.rdBool : Sys2Proof.Laws.OwnRow.Statement .rdBool :=
  ⟨⟨"RD.BOOL", 0x24#8, 0xFF#8⟩, by decide, rfl, by decide⟩

theorem Sys2Proof.Laws.OwnRow.wrFrame (cmd : Byte) (payload : List Byte) :
    Sys2Proof.Laws.OwnRow.Statement (.wrFrame cmd payload) :=
  ⟨⟨"WR.FRAME", 0x30#8, 0xFF#8⟩, by decide, rfl, by simp only [encode]; decide⟩

theorem Sys2Proof.Laws.OwnRow.endFrame (explen : Half) : Sys2Proof.Laws.OwnRow.Statement (.endFrame explen) :=
  ⟨⟨"END.FRAME", 0x31#8, 0xFF#8⟩, by decide, rfl, by simp only [encode]; decide⟩
end

