-- ==== Sys2Proof/Machine/Listing.lean ====
section
/-! DEFINITION. How operations are written down in a listing (spec/30_encoding.md R84) and the command ids the spec
transcribes "as data only" (R90, R91). Nothing here is read by the machine: "this syntax exists only so that programs
can be written down", and the command byte is opaque to the block (R75). -/

namespace Sys2Proof.Machine

/-- One hexadecimal digit. -/
def hexDigit (n : Nat) : Char := "0123456789ABCDEF".toList.getD n '0'

/-- A byte as two hexadecimal digits (R9). -/
def hexByte (b : Byte) : String := String.ofList [hexDigit (b.toNat / 16), hexDigit (b.toNat % 16)]

/-- The bytes of a sequence, separated by spaces. -/
def hexBytes : List Byte → String
  | []      => ""
  | [b]     => hexByte b
  | b :: bs => hexByte b ++ " " ++ hexBytes bs

/-- A byte sequence in square brackets, the empty one as `[]` (R84). -/
def listBytes (b : List Byte) : String := "[" ++ hexBytes b ++ "]"

/-- `s` is written `0` or `1` (R84). -/
def listSel : CrcSel → String
  | .rx => "0"
  | .tx => "1"

/-- A 16-bit operand in hexadecimal (R84). -/
def listHalf (v : Half) : String := "0x" ++ hexByte (v.extractLsb' 8 8) ++ hexByte (v.extractLsb' 0 8)

/-- The operands of an operation as a listing writes them, separated by commas (R84). -/
def listOperands : Instr → String
  | .crcInit s    => " " ++ listSel s
  | .crcUpd s d   => " " ++ listSel s ++ ", " ++ listBytes d
  | .crcFin s     => " " ++ listSel s
  | .rdU8         => ""
  | .rdU16        => ""
  | .rdU32        => ""
  | .rdF32        => ""
  | .rdBool       => ""
  | .wrFrame c p  => " 0x" ++ hexByte c ++ ", " ++ listBytes p
  | .endFrame l   => " " ++ listHalf l

/-- One line of a listing: the mnemonic, then the operands (R84). -/
def listing (i : Instr) : String := i.mnemonic ++ listOperands i

/-- The source's own names, "accepted as aliases" for the mnemonics (R84). -/
def sourceNames : List (String × String) :=
  [("update(bytes)", "CRC.UPD"), ("finish()", "CRC.FIN"),
   ("read<u8>", "RD.U8"), ("read<u16>", "RD.U16"), ("read<u32>", "RD.U32"), ("read<f32>", "RD.F32"),
   ("read<bool>", "RD.BOOL"),
   ("write_frame(command, payload)", "WR.FRAME"), ("end_frame(expected_length)", "END.FRAME")]

/-- The mnemonic a name of a listing stands for: a mnemonic of R80 itself, or an alias of R84. -/
def mnemonicOfName (name : String) : Option String :=
  if opRows.any (fun r => r.mnemonic == name) then some name
  else (sourceNames.find? (fun p => p.1 == name)).map (·.2)

/-- The "Core command ids" of the remote device's protocol, as the spec transcribes them (R90; of `0x1D` R91 says that
the software described puts `0x0A` there). -/
def commandIds : List (Byte × String) :=
  [(0x01#8, "module info (query)"), (0x02#8, "module info (response)"), (0x03#8, "set channels"),
   (0x04#8, "data query"), (0x05#8, "data response"), (0x06#8, "config set"), (0x07#8, "config get"),
   (0x08#8, "config get-response"), (0x09#8, "save"), (0x0A#8, "start-cal")] ++
  [(0x0B#8, "stop-cal"), (0x0C#8, "FIR set"), (0x0D#8, "FIR get"), (0x0E#8, "FIR get-response"),
   (0x0F#8, "power-down"), (0x10#8, "save-done"), (0x11#8, "sample-count"), (0x12#8, "cal-score"),
   (0x13#8, "config-set-done"), (0x14#8, "FIR-set-done")] ++
  [(0x15#8, "continuous start"), (0x16#8, "continuous stop"), (0x17#8, "power-up-done"),
   (0x18#8, "acq-params set"), (0x19#8, "acq-params get"), (0x1A#8, "acq-params set-done"),
   (0x1B#8, "acq-params get-response"), (0x1C#8, "power-down-done"), (0x1D#8, "factory-mag-coeff"),
   (0x1E#8, "factory-mag-coeff-done")] ++
  [(0x1F#8, "take-cal-sample"), (0x24#8, "factory-accel-coeff"), (0x25#8, "factory-accel-coeff-done"),
   (0x2B#8, "copy-coeff-set"), (0x2C#8, "copy-coeff-set-done"), (0x34#8, "serial-number query"),
   (0x35#8, "serial-number response")]

end Sys2Proof.Machine
end

