-- ==== Sys2Proof/Tests/Slice0.lean ====
section
/-! SUPPORT. The model's own tests: the decoding of words written out from spec/30_encoding.md R80, the refused term of
each check, one-step vectors of spec/95_test_vectors.md (each names its vector), and for every statement with
hypotheses a concrete state that meets them. -/

open Sys2Proof Sys2Proof.Machine

namespace Sys2Proof.Tests

/-! ## Helpers -/

/-- A state with bytes on RX and a transport that delivers as the test transport of R44 does: `Ok` when the bytes are
there, otherwise a timeout that loses all that is left. -/
def rxState (rx : List Byte) (crc : Half := 0) (count : Word := 0) : State :=
  { State.reset with
    rx := rx, crcRx := crc, count := count
    rxDraws := [⟨.ok, 3⟩, ⟨.ok, 3⟩, ⟨.ok, 3⟩, ⟨.ok, 3⟩], txDraws := [⟨.ok, 0⟩] }

/-- A state whose transport gives one named answer to the next read. -/
def failState (a : RxAnswer) (lost : Nat) (rx : List Byte) (crc : Half := 0) (count : Word := 0) : State :=
  { State.reset with rx := rx, crcRx := crc, count := count, rxDraws := [⟨a, lost⟩] }

/-- A state whose transport gives one named answer to the next write. -/
def txState (a : TxAnswer) (accepted : Nat) (crcTx : Half := 0) : State :=
  { State.reset with crcTx := crcTx, txDraws := [⟨a, accepted⟩] }

/-- The completion of the last operation. -/
def lastOf (o : Host.Outcome State Fault Refusal) : Option Completion :=
  match o with
  | .next t => t.done.getLast?
  | .fault _ => none
  | .refused _ => none

/-- A field of the next state. -/
def fieldOf {α : Type} (f : State → α) (o : Host.Outcome State Fault Refusal) : Option α :=
  match o with
  | .next t => some (f t)
  | .fault _ => none
  | .refused _ => none

/-- The next state's read side: `CRC[0]`, `COUNT`, RX. -/
def readSide (t : State) : Half × Word × List Byte := (t.crcRx, t.count, t.rx)

/-! ## Decoding: words written out from R80 -/

theorem test_decode_crcInit : decodeTableWord 8 0b00010001 = some (.crcInit .tx) := by decide
theorem test_decode_crcUpd : decodeTableWord 8 0b00010010 = some (.crcUpd .rx []) := by decide
theorem test_decode_crcFin : decodeTableWord 8 0b00010101 = some (.crcFin .tx) := by decide
theorem test_decode_rdU8 : decodeTableWord 8 0b00100000 = some .rdU8 := by decide
theorem test_decode_rdU16 : decodeTableWord 8 0b00100001 = some .rdU16 := by decide
theorem test_decode_rdU32 : decodeTableWord 8 0b00100010 = some .rdU32 := by decide
theorem test_decode_rdF32 : decodeTableWord 8 0b00100011 = some .rdF32 := by decide
theorem test_decode_rdBool : decodeTableWord 8 0b00100100 = some .rdBool := by decide
theorem test_decode_wrFrame :
    decode { code := 0b00110000#8, cmd := 0x05#8, payload := [1#8] } = .instr (.wrFrame 0x05#8 [1#8]) := by decide
theorem test_decode_endFrame :
    decode { code := 0b00110001#8, explen := 16#16 } = .instr (.endFrame 16#16) := by decide

/-- V-C24, V-RD21, V-F14: the code after the last of each family is reserved. -/
theorem test_decode_reserved :
    decode { code := 0x16#8 } = .error (.reservedCode 0x16#8) ∧ decodeTableWord 8 0x25 = none ∧
    decodeTableWord 8 0x32 = none := by decide

/-- R80: "The rows do not overlap." -/
theorem test_rows_disjoint : ∀ c : Byte, (opRows.filter (fun r => r.selects c)).length ≤ 1 := by decide +kernel

/-! ## WellFormed: the one check refuses its ill-formed term -/

theorem test_wellFormed_refuses_long_data :
    (Instr.crcUpd .tx (List.replicate 65536 0#8)).wellFormed = false := by
  show decide ((List.replicate 65536 0#8).length ≤ 65535) = false
  rw [List.length_replicate]
  decide

theorem test_decode_refuses_long_data (d : List Byte) (h : d.length = 65536) :
    decode { code := 0x13#8, data := d } = .error (.dataTooLong 65536) := by
  simp [decode, Config.maxData, h]

/-! ## The host's two questions: each code runs as the first operation after reset -/

theorem test_first_operation_runs :
    ∀ w ∈ [0x10, 0x11, 0x12, 0x13, 0x14, 0x15, 0x20, 0x21, 0x22, 0x23, 0x24, 0x30, 0x31],
      (fieldOf (fun _ => true) (step (State.reset.withFetchWord 8 w))).isSome = true := by
  decide

/-! ## The checksum engine -/

/-- V-C5. -/
theorem test_crcStep : crcStep 0x0000#16 0x31#8 = 0x2672#16 := by decide +kernel
/-- V-C16. -/
theorem test_crcUpdate : crcUpdate 0x0000#16 [0x12#8, 0x34#8, 0x56#8, 0x78#8] = 0xB42C#16 := by decide +kernel
/-- V-C18. -/
theorem test_crcTable : crcTableAt 0x17#8 = 0x62D6#16 ∧ crcStepByTable 0x1231#16 0x05#8 = 0x53D6#16 := by
  decide +kernel
/-- V-C19. -/
theorem test_crcInit : fieldOf State.crcTx (exec (.crcInit .tx) (txState .ok 0 0xEFD4#16)) = some 0x0000#16 := by
  decide +kernel
/-- V-C20. -/
theorem test_crcUpd :
    fieldOf State.crcTx (exec (.crcUpd .tx [0x00#8, 0x05#8, 0x01#8]) State.reset) = some 0xEFD4#16 := by
  decide +kernel
/-- V-C23: the bypass of R221. -/
theorem test_crcUpd_rx :
    fieldOf readSide (exec (.crcUpd .rx [0x01#8]) (rxState [])) = some (0x1021#16, 0#32, []) := by decide +kernel
/-- V-C22. -/
theorem test_crcFin :
    lastOf (exec (.crcFin .tx) (txState .ok 0 0xEFD4#16)) = some (.ok (.u16 0xEFD4#16)) := by decide +kernel

/-! ## The byte reader -/

/-- V-RD2. -/
theorem test_rdU8 :
    lastOf (exec .rdU8 (rxState [0xFF#8, 0x01#8])) = some (.ok (.u8 0xFF#8)) ∧
    fieldOf readSide (exec .rdU8 (rxState [0xFF#8, 0x01#8])) = some (0x1EF0#16, 1#32, [0x01#8]) := by decide +kernel
/-- V-RD20: the count saturates. -/
theorem test_rdU8_saturates :
    fieldOf readSide (exec .rdU8 (rxState [0x00#8] 0 0xFFFFFFFF#32)) = some (0x0000#16, 0xFFFFFFFF#32, []) := by
  decide +kernel
/-- V-RD3. -/
theorem test_rdU16 :
    lastOf (exec .rdU16 (rxState [0x00#8, 0x10#8])) = some (.ok (.u16 16#16)) ∧
    fieldOf readSide (exec .rdU16 (rxState [0x00#8, 0x10#8])) = some (0x1231#16, 2#32, []) := by decide +kernel
/-- V-RD10: another failure is told apart from a timeout. -/
theorem test_rdU16_io :
    lastOf (exec .rdU16 (failState .io 1 [0x00#8, 0x10#8])) = some .transportIo ∧
    fieldOf readSide (exec .rdU16 (failState .io 1 [0x00#8, 0x10#8])) = some (0x0000#16, 0#32, [0x10#8]) := by
  decide +kernel
/-- V-RD6. -/
theorem test_rdU32 :
    lastOf (exec .rdU32 (rxState [0x12#8, 0x34#8, 0x56#8, 0x78#8])) = some (.ok (.u32 0x12345678#32)) ∧
    fieldOf readSide (exec .rdU32 (rxState [0x12#8, 0x34#8, 0x56#8, 0x78#8])) = some (0xB42C#16, 4#32, []) := by
  decide +kernel
/-- V-RD11: two of four bytes arrive. -/
theorem test_rdU32_timeout :
    lastOf (exec .rdU32 (rxState [0x3F#8, 0x80#8] 0x53D6#16 3#32)) = some .transportTimeout ∧
    fieldOf readSide (exec .rdU32 (rxState [0x3F#8, 0x80#8] 0x53D6#16 3#32)) = some (0x53D6#16, 3#32, []) := by
  decide +kernel
/-- V-RD13: a NaN pattern, bit for bit. -/
theorem test_rdF32 :
    lastOf (exec .rdF32 (rxState [0x7F#8, 0xC0#8, 0x00#8, 0x01#8])) = some (.ok (.f32 0x7FC00001#32)) ∧
    fieldOf readSide (exec .rdF32 (rxState [0x7F#8, 0xC0#8, 0x00#8, 0x01#8])) = some (0xA04D#16, 4#32, []) := by
  decide +kernel
/-- V-RD18. -/
theorem test_rdBool :
    lastOf (exec .rdBool (rxState [0x01#8] 0x2C7B#16 4#32)) = some (.ok (.bool true)) ∧
    fieldOf readSide (exec .rdBool (rxState [0x01#8] 0x2C7B#16 4#32)) = some (0x8ECF#16, 5#32, []) := by
  decide +kernel
/-- V-RD16. -/
theorem test_rdBool_parseError :
    lastOf (exec .rdBool (rxState [0x02#8])) = some (.parseError 0x02#8) ∧
    fieldOf readSide (exec .rdBool (rxState [0x02#8])) = some (0x2042#16, 1#32, []) := by decide +kernel

/-! ## The frame codec -/

/-- V-F4, the third frame. -/
theorem test_wrFrame :
    fieldOf State.tx (exec (.wrFrame 0x06#8 [0x02#8, 0x01#8]) (txState .ok 0)) =
      some [0x00#8, 0x07#8, 0x06#8, 0x02#8, 0x01#8, 0x95#8, 0xCE#8] ∧
    fieldOf State.crcTx (exec (.wrFrame 0x06#8 [0x02#8, 0x01#8]) (txState .ok 0)) = some 0x95CE#16 := by
  decide +kernel
/-- V-F5, the second payload. -/
theorem test_wrFrame_tooLong :
    exec (.wrFrame 0x00#8 (List.replicate 65531 0#8)) State.reset =
      .next { State.reset with done := [.lengthOverflow 65531] } := by
  rw [exec_wrFrame_long _ (by rw [List.length_replicate]; omega), List.length_replicate]
  rfl
/-- V-F7. -/
theorem test_endFrame_checksum :
    lastOf (exec (.endFrame 5#16) (rxState [0xEF#8, 0xD5#8] 0xEFD4#16 3#32)) =
      some (.checksumMismatch 0xEFD4#16 0xEFD5#16) ∧
    fieldOf readSide (exec (.endFrame 5#16) (rxState [0xEF#8, 0xD5#8] 0xEFD4#16 3#32)) =
      some (0x0000#16, 0#32, []) := by decide +kernel
/-- V-F8: the size is reported although the checksum differs too; no drain. -/
theorem test_endFrame_size :
    lastOf (exec (.endFrame 5#16) (rxState [0x01#8, 0xEF#8, 0xD4#8] 0x50A5#16 2#32)) =
      some (.sizeMismatch 5#16 2#32) ∧
    fieldOf readSide (exec (.endFrame 5#16) (rxState [0x01#8, 0xEF#8, 0xD4#8] 0x50A5#16 2#32)) =
      some (0x0000#16, 0#32, [0xD4#8]) := by decide +kernel

/-! ## The port, the listing and the ids -/

/-- V-C24 as a step: `IllegalOp(0x16)`, nothing else. -/
theorem test_step_illegal :
    step { State.reset with port := [.issue { code := 0x16#8 }] } =
      .next { State.reset with done := [.illegalOp 0x16#8] } := rfl

/-- R84's syntax, on the operations of programs P5 and P7. -/
theorem test_listing :
    listing (.wrFrame 0x03#8 [0x02#8, 0x15#8, 0x05#8]) = "WR.FRAME 0x03, [02 15 05]" ∧
    listing (.crcUpd .tx []) = "CRC.UPD 1, []" ∧ mnemonicOfName "read<u16>" = some "RD.U16" := by decide +kernel

/-- R90: "37 ids", none listed twice. -/
theorem test_commandIds : commandIds.length = 37 ∧ (commandIds.map (·.1)).Nodup := by decide +kernel

/-! ## Witnesses: states that meet the hypotheses of the statements -/

theorem witness_HardwareResetClearsThreeRegisters :
    ∃ (s : State) (rest : List HostEvent), s.port = .reset :: rest :=
  ⟨{ rxState [] 7 7 with port := [.reset] }, [], rfl⟩

theorem witness_ResetOnlyBetweenOperations :
    (∃ (s : State) (c : Command) (rest : List HostEvent), s.port = .resetDuring c :: rest) ∧
    ∃ (s : State) (rest : List HostEvent), s.port = .reset :: rest :=
  ⟨⟨{ State.reset with port := [.resetDuring { code := 0x20#8 }] }, { code := 0x20#8 }, [], rfl⟩,
   ⟨{ State.reset with port := [.reset] }, [], rfl⟩⟩

theorem witness_ConcurrentIssueIsRefused :
    ∃ (s : State) (c d : Command) (rest : List HostEvent), s.port = .issueDuring c d :: rest :=
  ⟨{ State.reset with port := [.issueDuring { code := 0x20#8 } { code := 0x21#8 }] }, { code := 0x20#8 },
   { code := 0x21#8 }, [], rfl⟩

theorem witness_StepRunsTheIssuedOperation :
    (∃ (s : State) (i : Instr) (rest : List HostEvent), i.wellFormed = true ∧ s.port = .issue (encode i) :: rest) ∧
    (∃ (s : State) (c : Command) (i : Instr) (rest : List HostEvent),
      decode c = .instr i ∧ s.port = .issue c :: rest) ∧ ∃ s : State, s.port = [] :=
  ⟨⟨{ State.reset with port := [.issue (encode (.endFrame 5#16))] }, .endFrame 5#16, [], rfl, rfl⟩,
   ⟨{ State.reset with port := [.issue { code := 0x30#8, cmd := 1#8, explen := 9#16 }] },
    { code := 0x30#8, cmd := 1#8, explen := 9#16 }, .wrFrame 1#8 [], [], by decide, rfl⟩, ⟨State.reset, rfl⟩⟩

theorem witness_ReservedCodesCompleteIllegalOp :
    ∃ (s : State) (c : Command) (rest : List HostEvent), reservedCode c.code = true ∧ s.port = .issue c :: rest :=
  ⟨{ State.reset with port := [.issue { code := 0x16#8 }] }, { code := 0x16#8 }, [], by decide, rfl⟩

theorem witness_OnlyExcludedEventsAreRefused :
    ∃ (s : State) (e : HostEvent) (rest : List HostEvent), s.port = e :: rest ∧ e.allowed = false :=
  ⟨{ State.reset with port := [.resetDuring { code := 0x20#8 }] }, .resetDuring { code := 0x20#8 }, [], rfl, rfl⟩

theorem witness_EveryIssueGetsExactlyOneCompletion :
    ∃ (s : State) (c : Command) (rest : List HostEvent),
      s.port = .issue c :: rest ∧ (HostEvent.issue c).allowed = true :=
  ⟨{ State.reset with port := [.issue { code := 0xFF#8 }] }, { code := 0xFF#8 }, [], rfl, by decide⟩

theorem witness_RunsReachTheEndOfTheList :
    ∃ s : State, s.port.length = 3 ∧ ∀ e ∈ s.port, e.allowed = true :=
  ⟨{ State.reset with port := [.issue { code := 0x20#8 }, .reset, .issue { code := 0x99#8 }] }, rfl, by decide⟩

theorem witness_DecodeOfEncodeIsIdentity :
    (Instr.crcUpd .rx [1#8]).wellFormed = true ∧ (Instr.endFrame 0xFFFF#16).wellFormed = true := by decide

theorem witness_EncodeOfDecodeKeepsTheCommand :
    decode { code := 0x13#8, data := [7#8] } = .instr (.crcUpd .tx [7#8]) ∧
    decode { code := 0x30#8, cmd := 2#8, payload := [3#8] } = .instr (.wrFrame 2#8 [3#8]) ∧
    decode { code := 0x31#8, explen := 5#16 } = .instr (.endFrame 5#16) := by decide

theorem witness_DecoderFollowsTheRows :
    ∃ (c : Command) (r : OpRow) (i : Instr), r ∈ opRows ∧ r.selects c.code = true ∧ c.data.length ≤ 65535 ∧
      decode c = .instr i :=
  ⟨{ code := 0x15#8 }, ⟨"CRC.FIN", 0x14#8, 0xFE#8⟩, .crcFin .tx, by decide, by decide, by decide, by decide⟩

theorem witness_ChecksumIsLinear : ∃ x y : List Byte, x.length = y.length ∧ x ≠ y :=
  ⟨[0x56#8], [0xEF#8], rfl, by decide⟩

/-- The generator itself, shifted to a byte boundary, is a pattern of checksum zero. -/
theorem witness_UndetectedCorruptionsAreThoseOfChecksumZero :
    ∃ m d : List Byte, d.length = m.length ∧ checksum d = 0x0000#16 ∧ d ≠ [0#8, 0#8, 0#8] :=
  ⟨[0x00#8, 0x05#8, 0x01#8], [0x01#8, 0x10#8, 0x21#8], rfl, by decide +kernel, by decide⟩

theorem witness_ReadSideRegisterWriters :
    isReader .rdU8 = true ∧ isEndFrame (.endFrame 0#16) = true ∧ isReader (.wrFrame 0#8 []) = false ∧
    isEndFrame (.wrFrame 0#8 []) = false ∧ bypassesCounter (.wrFrame 0#8 []) = false := by decide

theorem witness_WriteSideRegisterWriters :
    ([] : List Byte).length ≤ 65530 ∧ 65530 < (List.replicate 65531 0#8).length ∧ isWrFrame .rdU8 = false ∧
    Instr.rdU8 ≠ .crcInit .tx ∧ ∀ d, Instr.rdU8 ≠ .crcUpd .tx d :=
  ⟨by decide, by rw [List.length_replicate]; omega, rfl, by decide, fun _ h => Instr.noConfusion h⟩

theorem witness_CountWriters :
    isReader .rdU32 = true ∧ isEndFrame (.endFrame 0#16) = true ∧ isReader (.crcFin .rx) = false ∧
    isEndFrame (.crcFin .rx) = false := by decide

theorem witness_EngineOperationsTouchNoStream :
    isReader (.crcUpd .rx []) = false ∧ isWrFrame (.crcUpd .rx []) = false ∧ isEndFrame (.crcUpd .rx []) = false := by
  decide

theorem witness_RdU8ReturnsTheByte :
    ∃ (s : State) (b : Byte) (rest : List Byte), s.nextRx.answer = .ok ∧ s.rx = b :: rest :=
  ⟨rxState [0xFF#8], 0xFF#8, [], rfl, rfl⟩

theorem witness_RdU16ReturnsBigEndian :
    (∃ (s : State) (a b : Byte) (rest : List Byte), s.nextRx.answer = .ok ∧ s.rx = a :: b :: rest) ∧
    ∃ s : State, s.nextRx.answer = .ok → s.rx.length < 2 :=
  ⟨⟨rxState [0xFF#8, 0xFF#8], 0xFF#8, 0xFF#8, [], rfl, rfl⟩, ⟨rxState [], by decide⟩⟩

/-- Also of `RdF32ReturnsThePattern`, whose hypotheses are the same. -/
theorem witness_RdU32ReturnsBigEndian :
    (∃ (s : State) (a b c d : Byte) (rest : List Byte), s.nextRx.answer = .ok ∧ s.rx = a :: b :: c :: d :: rest) ∧
    ∃ s : State, s.nextRx.answer = .ok → s.rx.length < 4 :=
  ⟨⟨rxState [0xFF#8, 0xFF#8, 0xFF#8, 0xFF#8], 0xFF#8, 0xFF#8, 0xFF#8, 0xFF#8, [], rfl, rfl⟩, ⟨rxState [], by decide⟩⟩

/-- The three clauses at 0, 1 and the first rejected byte, and the byte that does not arrive. -/
theorem witness_RdBoolAcceptsOnlyZeroAndOne :
    (∀ b ∈ [0x00#8, 0x01#8, 0x02#8], ∃ s : State, s.nextRx.answer = .ok ∧ s.rx = b :: []) ∧
    ∃ s : State, s.nextRx.answer = .ok → s.rx.length < 1 :=
  ⟨fun b _ => ⟨rxState [b], rfl, rfl⟩, ⟨rxState [], by decide⟩⟩

/-- A timeout, another failure, and a delivery of which too few bytes are there. Also of
`FailedReadAtBoundaryStaysThere`. -/
theorem witness_FailedReadChangesNoRegister :
    ∀ s ∈ [failState .timeout 0 [1#8], failState .io 5 [1#8, 2#8], failState .ok 0 [1#8]],
      isReader .rdU16 = true ∧ atBoundary s ∧ (s.nextRx.answer = .ok → s.rx.length < rxWidth .rdU16) := by
  simp only [List.forall_mem_cons]
  exact ⟨⟨rfl, ⟨rfl, rfl⟩, by decide⟩, ⟨rfl, ⟨rfl, rfl⟩, by decide⟩, ⟨rfl, ⟨rfl, rfl⟩, by decide⟩, by simp⟩

theorem witness_ReadersLeaveTheWriteSide : isReader .rdBool = true := rfl

theorem witness_GroupingOfReadsIsInvisible :
    ∃ (is js : List Instr) (s : State), (∀ i ∈ is, isReader i = true) ∧ (∀ j ∈ js, isReader j = true) ∧
      (is.map rxWidth).sum = (js.map rxWidth).sum ∧ (is.map rxWidth).sum ≤ s.rx.length ∧
      rxOk is.length s ∧ rxOk js.length s ∧ is ≠ js :=
  ⟨[.rdU32], [.rdU8, .rdU16, .rdBool], rxState [1#8, 2#8, 3#8, 4#8], by decide, by decide, rfl, by decide,
   ⟨rfl, trivial⟩, ⟨rfl, rfl, rfl, trivial⟩, by decide⟩

theorem witness_OneU32IsTwoU16 :
    ∃ (s : State) (a b c d : Byte) (rest : List Byte), s.rx = a :: b :: c :: d :: rest ∧ rxOk 2 s :=
  ⟨rxState [0xFF#8, 2#8, 3#8, 0xFF#8], 0xFF#8, 2#8, 3#8, 0xFF#8, [], rfl, ⟨rfl, rfl, trivial⟩⟩

theorem witness_RdHdrStopsAtAFailedLength :
    (∃ (s : State) (a b : Byte) (rest : List Byte), s.nextRx.answer = .ok ∧ s.rx = a :: b :: rest) ∧
    ∃ s : State, s.nextRx.answer = .ok → s.rx.length < 2 :=
  ⟨⟨rxState [0#8, 5#8], 0#8, 5#8, [], rfl, rfl⟩, ⟨rxState [0#8], by decide⟩⟩

theorem witness_OperationsRaiseExactlyTheirErrors :
    3 ∈ possibleCodes .rdBool ∧ 6 ∈ possibleCodes (.wrFrame 0#8 []) ∧ 5 ∈ possibleCodes (.endFrame 0#16) := by decide

/-- The longest payload. -/
theorem witness_FrameFieldsAreInPlace : (List.replicate 65530 0#8).length ≤ 65530 := by
  rw [List.length_replicate]

theorem witness_WrFrameEmitsTheFrame :
    ∃ (s : State) (p : List Byte), p.length ≤ 65530 ∧ s.nextTx.answer = .ok :=
  ⟨txState .ok 0, List.replicate 65530 0#8, by rw [List.length_replicate], rfl⟩

/-- The shortest payload that is too long. -/
theorem witness_WrFrameRefusesLongPayloads : 65530 < (List.replicate 65531 0#8).length := by
  rw [List.length_replicate]; omega

theorem witness_WrFrameFailureLeavesAPrefix :
    ∃ (s : State) (p : List Byte), p.length ≤ 65530 ∧ s.nextTx.answer = .io :=
  ⟨txState .io 3, [1#8], by decide, rfl⟩

theorem witness_EmittedFrameIgnoresTheReadSide :
    ∃ s t : State, sameWriteSide s t ∧ s.crcRx ≠ t.crcRx ∧ s.crcTx ≠ t.crcTx :=
  ⟨txState .ok 0 1#16, { txState .ok 0 2#16 with crcRx := 9#16 }, ⟨rfl, rfl, rfl⟩, by decide, by decide⟩

/-- Each outcome's clause: the size one byte short and one over, the checksum one bit off, `Ok`, and the trailer that
does not arrive. -/
theorem witness_EndFrameChecksSizeThenChecksum :
    (∀ n ∈ [2#32, 4#32], ∃ s : State, s.nextRx.answer = .ok ∧ s.rx = [0xEF#8, 0xD4#8] ∧ s.count = n ∧
      s.count.toNat + 2 ≠ (5#16 : Half).toNat) ∧
    (∃ s : State, s.nextRx.answer = .ok ∧ s.rx = [0xEF#8, 0xD5#8] ∧ s.count.toNat + 2 = (5#16 : Half).toNat ∧
      s.crcRx ≠ BitVec.ofNat 16 (0xEF * 2 ^ 8 + 0xD5)) ∧
    (∃ s : State, s.nextRx.answer = .ok ∧ s.rx = [0xEF#8, 0xD4#8] ∧ s.count.toNat + 2 = (5#16 : Half).toNat ∧
      s.crcRx = BitVec.ofNat 16 (0xEF * 2 ^ 8 + 0xD4)) ∧
    ∃ s : State, s.nextRx.answer = .ok → s.rx.length < 2 := by
  refine ⟨?_, ⟨rxState [0xEF#8, 0xD5#8] 0xEFD4#16 3#32, rfl, rfl, rfl, by decide⟩,
    ⟨rxState [0xEF#8, 0xD4#8] 0xEFD4#16 3#32, rfl, rfl, rfl, by decide⟩, ⟨rxState [0xEF#8], by decide⟩⟩
  simp only [List.forall_mem_cons]
  exact ⟨⟨rxState [0xEF#8, 0xD4#8] 0xEFD4#16 2#32, rfl, rfl, rfl, by decide⟩,
    ⟨rxState [0xEF#8, 0xD4#8] 0xEFD4#16 4#32, rfl, rfl, rfl, by decide⟩, by simp⟩

/-- V-F6. -/
theorem witness_EndFrameAcceptsAMatchingFrame :
    ∃ (s : State) (l : Half) (rest : List Byte), s.nextRx.answer = .ok ∧ s.rx = beBytes16 s.crcRx ++ rest ∧
      s.count.toNat + 2 = l.toNat :=
  ⟨rxState [0xEF#8, 0xD4#8] 0xEFD4#16 3#32, 5#16, [], rfl, by decide, by decide⟩

/-- V-F8, and V-F11 with `explen` 0 and 1. -/
theorem witness_SizeMismatchIgnoresTheChecksum :
    (∃ s : State, s.nextRx.answer = .ok ∧ 2 ≤ s.rx.length ∧ s.count.toNat + 2 ≠ (5#16 : Half).toNat) ∧
    ∃ s : State, s.nextRx.answer = .ok ∧ 2 ≤ s.rx.length ∧ s.count = 0#32 :=
  ⟨⟨rxState [1#8, 2#8] 0 2#32, rfl, by decide, by decide⟩, ⟨rxState [0#8, 0#8], rfl, by decide, rfl⟩⟩

/-- V-F10: one byte of the trailer is there. -/
theorem witness_CloseReportsTransportErrorFirst :
    ∃ s : State, s.nextRx.answer = .ok → s.rx.length < 2 :=
  ⟨rxState [0xEF#8] 0xEFD4#16 3#32, by decide⟩

theorem witness_EndFrameDoesNotDrain :
    ∃ (s : State) (l : Half), s.nextRx.answer = .ok ∧ 2 ≤ s.rx.length ∧ s.count.toNat < l.toNat - 2 :=
  ⟨rxState [1#8, 2#8, 3#8] 0 2#32, 5#16, rfl, by decide, by decide⟩

theorem witness_StreamsOnlyMoveForward : ∃ s t : State, step s = .next t := ⟨State.reset, State.reset, rfl⟩

/-- In mid-frame after the byte 1, with a read of the byte 5 to come; what was consumed grows by that byte. -/
theorem witness_EveryStepKeepsFrameInv :
    ∃ (b : List Byte) (s t : State), FrameInv b s ∧ s.count = 1#32 ∧ step s = .next t ∧
      consumedSince b s t = [0x01#8, 0x05#8] :=
  ⟨[0x01#8], { rxState [0x05#8] 0x1021#16 1#32 with port := [.issue { code := 0x20#8 }] }, _,
   ⟨by decide +kernel, by decide, by decide⟩, rfl, rfl, by decide +kernel⟩

/-- In mid-frame, with a close and with a reset to come; nothing is consumed since. -/
theorem witness_EveryStepKeepsFrameInv_boundary :
    ∀ e ∈ [HostEvent.issue { code := 0x31#8, explen := 3#16 }, HostEvent.reset],
      ∃ s t : State, FrameInv [0x01#8] s ∧ s.port = [e] ∧ step s = .next t ∧ consumedSince [0x01#8] s t = [] := by
  simp only [List.forall_mem_cons]
  exact ⟨⟨{ rxState [0x10#8, 0x21#8] 0x1021#16 1#32 with port := [.issue { code := 0x31#8, explen := 3#16 }] }, _,
      ⟨by decide +kernel, by decide, by decide⟩, rfl, rfl, by decide +kernel⟩,
    ⟨{ rxState [] 0x1021#16 1#32 with port := [.reset] }, _,
      ⟨by decide +kernel, by decide, by decide⟩, rfl, rfl, rfl⟩, by simp⟩

theorem witness_CountZeroIsTheBoundaryTest : ∃ (b : List Byte) (s : State), FrameInv b s ∧ s.count = 0#32 :=
  ⟨[], State.reset, ⟨rfl, by decide, by decide⟩, rfl⟩

theorem witness_ReadsAccumulateExactlyTheConsumedBytes :
    ∃ (ops : List Instr) (s : State), atBoundary s ∧ ∀ i ∈ ops, isReader i = true ∨ isWrFrame i = true :=
  ⟨[.rdU8, .wrFrame 1#8 [], .rdBool], rxState [1#8, 2#8], ⟨rfl, rfl⟩, by decide⟩

theorem witness_WritingInMidFrameDisturbsNoRead :
    ∃ ops : List Instr, ops.length = 2 ∧ ∀ i ∈ ops, isReader i = true ∨ isEndFrame i = true :=
  ⟨[.rdU8, .endFrame 5#16], rfl, by decide⟩

/-- The frame `00 06 01 07` with its checksum, read with one `RD.BOOL`. -/
theorem witness_CanonicalReceiveClosesOk :
    ∃ (s : State) (cmd : Byte) (payload rest : List Byte) (reads : List Instr), atBoundary s ∧
      payload.length ≤ 65530 ∧ s.rx = frameBytes cmd payload ++ rest ∧ (∀ i ∈ reads, isReader i = true) ∧
      (reads.map rxWidth).sum = payload.length ∧ rxOk (reads.length + 3) s :=
  ⟨rxState (frameBytes 1#8 [7#8] ++ [0xAA#8]), 1#8, [7#8], [0xAA#8], [.rdBool], ⟨rfl, rfl⟩, by decide, rfl,
   by decide, rfl, ⟨rfl, rfl, rfl, rfl, trivial⟩⟩

theorem witness_FrameSymmetry :
    ∃ (s w r : State) (cmd : Byte) (payload emitted rest : List Byte), payload.length ≤ 65530 ∧
      s.nextTx.answer = .ok ∧ exec (.wrFrame cmd payload) s = .next w ∧ w.tx = s.tx ++ emitted ∧
      atBoundary r ∧ r.rx = emitted ++ rest ∧ rxOk (payload.length + 3) r :=
  ⟨txState .ok 0, _, rxState (frameBytes 3#8 [2#8]), 3#8, [2#8], frameBytes 3#8 [2#8], [], by decide, rfl,
   exec_wrFrame_ok 3#8 (by decide) rfl, rfl, ⟨rfl, rfl⟩, by simp [rxState], ⟨rfl, rfl, rfl, rfl, trivial⟩⟩

end Sys2Proof.Tests
end

/-! SUPPORT. The frame invariant along a step (spec/10_state.md R25). An operation that is no `END.FRAME` and does not
bypass the counter folds and counts exactly the bytes it consumed, so the invariant's byte sequence grows by them; at a
frame boundary the sequence is empty. -/

namespace Sys2Proof.Machine

/-- Issuing an operation bypasses the counter exactly when the operation does (R221). -/
theorem bypasses_issue {c : Command} {i : Instr} (hd : decode c = .instr i) :
    (HostEvent.issue c).bypasses = bypassesCounter i := by
  simp [HostEvent.bypasses, hd]

/-- Only a read consumes bytes (R25). -/
theorem consumedBy_of_not_reader {i : Instr} (h : isReader i = false) (s t : State) : consumedBy i s t = [] := by
  simp [consumedBy, h]

/-- What an operation consumes does not depend on the host's events to come (R25). -/
theorem consumedBy_port (i : Instr) (s t : State) (rest : List HostEvent) :
    consumedBy i { s with port := rest } t = consumedBy i s t := rfl

/-- An operation that is no read and no close and does not bypass the counter leaves `CRC[0]` and `COUNT` (R21, R23). -/
theorem exec_keeps_crcRx_count {i : Instr} {s t : State} (hr : isReader i = false) (hc : isEndFrame i = false)
    (hb : bypassesCounter i = false) (he : exec i s = .next t) : t.crcRx = s.crcRx ∧ t.count = s.count := by
  cases i with
  | crcInit sel =>
    cases sel with
    | rx => cases hb
    | tx => cases he; exact ⟨rfl, rfl⟩
  | crcUpd sel data =>
    cases sel with
    | rx => cases hb
    | tx => cases he; exact ⟨rfl, rfl⟩
  | crcFin sel => cases he; exact ⟨rfl, rfl⟩
  | wrFrame cmd payload =>
    obtain ⟨⟨hcrc, hcount, -⟩, -⟩ := exec_wrFrame_registers he
    exact ⟨hcrc, hcount⟩
  | endFrame explen => cases hc
  | rdU8 => cases hr
  | rdU16 => cases hr
  | rdU32 => cases hr
  | rdF32 => cases hr
  | rdBool => cases hr

/-- Every operation but the closes and the two that bypass the counter folds into `CRC[0]`, and adds to `COUNT`, exactly
the bytes it consumed (R25). -/
theorem exec_accumulates_consumed {i : Instr} {s t : State} (hc : isEndFrame i = false)
    (hb : bypassesCounter i = false) (he : exec i s = .next t) :
    t.crcRx = crcUpdate s.crcRx (consumedBy i s t) ∧ t.count = satAdd s.count (consumedBy i s t).length := by
  cases hr : isReader i with
  | true =>
    obtain ⟨hcrc, hcount, -⟩ := exec_reader_registers hr he
    exact ⟨hcrc, hcount⟩
  | false => simpa [consumedBy_of_not_reader hr] using exec_keeps_crcRx_count hr hc hb he

/-- At a frame boundary nothing has been consumed since (R24). -/
theorem frameInv_nil_of_atBoundary {s : State} (h : atBoundary s) (hp : ∀ e ∈ s.port, e.bypasses = false) :
    FrameInv [] s := by
  obtain ⟨hcount, hcrc⟩ := h
  exact ⟨hcrc, by simp [hcount], hp⟩

/-- Taking an event from the port keeps the invariant. -/
theorem FrameInv.popPort {b : List Byte} {s : State} {e : HostEvent} {rest : List HostEvent} (h : FrameInv b s)
    (hp : s.port = e :: rest) : FrameInv b { s with port := rest } := by
  obtain ⟨hcrc, hcount, hport⟩ := h
  exact ⟨hcrc, hcount, fun e' he' => hport e' (hp ▸ List.mem_cons_of_mem e he')⟩

/-- Folding and counting further bytes makes the invariant one of the longer sequence (R102, R23). -/
theorem FrameInv.append {b d : List Byte} {s t : State} (h : FrameInv b s)
    (hcrc : t.crcRx = crcUpdate s.crcRx d) (hcount : t.count = satAdd s.count d.length) (hport : t.port = s.port) :
    FrameInv (b ++ d) t := by
  obtain ⟨hcrcS, hcountS, hportS⟩ := h
  refine ⟨?_, ?_, hport ▸ hportS⟩
  · rw [hcrc, hcrcS, crcUpdate_append]
  · rw [hcount, satAdd_toNat, hcountS, List.length_append, Config.countMax]
    omega

/-- Every operation that does not bypass the counter keeps the frame invariant, of no byte after a close and of
the bytes consumed so far otherwise (R25, R155). -/
theorem exec_keeps_frameInv {b : List Byte} {i : Instr} {s t : State} (h : FrameInv b s)
    (hb : bypassesCounter i = false) (he : exec i s = .next t) :
    FrameInv (if isEndFrame i then [] else b ++ consumedBy i s t) t := by
  obtain ⟨-, hport, -⟩ := exec_forward he
  cases hc : isEndFrame i with
  | true =>
    obtain ⟨l, rfl⟩ : ∃ l, i = .endFrame l := by cases i <;> simp [isEndFrame] at hc ⊢
    obtain ⟨hcrc, hcount, -⟩ := exec_endFrame_registers he
    obtain ⟨-, -, hportS⟩ := h
    exact frameInv_nil_of_atBoundary ⟨hcount, hcrc⟩ (hport ▸ hportS)
  | false =>
    obtain ⟨hcrc, hcount⟩ := exec_accumulates_consumed hc hb he
    exact h.append hcrc hcount hport

/-- Settles O55, by the four things a step can do: the idle step and a reserved code leave the registers, reset makes a
boundary, and an issued operation keeps the invariant because it does not bypass the counter. -/
theorem everyStepKeepsFrameInv : Obligations.EveryStepKeepsFrameInv := by
  intro b s t h hs
  rcases step_cases hs with ⟨hp, rfl⟩ | ⟨c, i, rest, hp, hd, he⟩ | ⟨c, k, rest, hp, hd, rfl⟩ | ⟨rest, hp, rfl⟩
  · rwa [consumedSince_idle b t hp]
  · rw [consumedSince_issue b t hd hp, ← consumedBy_port i s t rest]
    have hrest := h.popPort hp
    obtain ⟨-, -, hport⟩ := h
    have hb : bypassesCounter i = false := bypasses_issue hd ▸ hport (.issue c) (by simp [hp])
    exact exec_keeps_frameInv hrest hb he
  · rw [consumedSince_reserved b _ hd hp]
    exact h.popPort hp
  · rw [consumedSince_reset b _ hp]
    obtain ⟨-, -, hport⟩ := h.popPort hp
    exact frameInv_nil_of_atBoundary ⟨rfl, rfl⟩ hport

end Sys2Proof.Machine

/-! SUPPORT. The fields of a frame, each read from its place (spec/30_encoding.md R70 to R72): the length, command and
payload through the frame read from the front, the checksum through the body it covers. -/

namespace Sys2Proof.Machine

/-- The length field holds the frame's total length (R71). -/
theorem beNat_take_frameBytes (cmd : Byte) {p : List Byte} (h : p.length ≤ 65530) :
    beNat ((frameBytes cmd p).take 2) = (frameBytes cmd p).length := by
  rw [frameBytes_length, frameBytes_eq, take_beBytes16, beNat_beBytes16, frameLength_field p h]

/-- After the length field come the command, the payload and the checksum (R70). -/
theorem drop_two_frameBytes (cmd : Byte) (p : List Byte) :
    (frameBytes cmd p).drop 2 = cmd :: (p ++ beBytes16 (checksum (frameBody cmd p))) := by
  rw [frameBytes_eq, drop_beBytes16]

/-- The command stands after the length field (R70). -/
theorem getElem?_two_frameBytes (cmd : Byte) (p : List Byte) : (frameBytes cmd p)[2]? = some cmd := by
  rw [← List.head?_drop, drop_two_frameBytes, List.head?_cons]

/-- The payload stands after the command (R70). -/
theorem take_drop_three_frameBytes (cmd : Byte) (p : List Byte) :
    ((frameBytes cmd p).drop 3).take p.length = p := by
  rw [← List.tail_drop, drop_two_frameBytes, List.tail_cons, List.take_left]

/-- All but the last two bytes are the body, which the checksum covers (R72). -/
theorem take_frameBytes_body (cmd : Byte) (p : List Byte) :
    (frameBytes cmd p).take ((frameBytes cmd p).length - 2) = frameBody cmd p :=
  List.take_left' (by simp)

/-- The checksum field stands after the payload (R70, R72). -/
theorem drop_frameBytes_checksum (cmd : Byte) (p : List Byte) :
    (frameBytes cmd p).drop (3 + p.length) = beBytes16 (checksum (frameBody cmd p)) :=
  List.drop_left' (by simp; omega)

/-- Settles O41, field by field: the frame's length and its bounds, the length field, the command, the payload, and the
checksum of all that stands before it. -/
theorem frameFieldsAreInPlace : Obligations.FrameFieldsAreInPlace := by
  intro cmd p h
  refine ⟨?_, ?_, ?_, beNat_take_frameBytes cmd h, getElem?_two_frameBytes cmd p, take_drop_three_frameBytes cmd p, ?_⟩
  · rw [frameBytes_length, Nat.add_comm]
  · rw [frameBytes_length]; omega
  · rw [frameBytes_length]; omega
  · rw [drop_frameBytes_checksum, beU16_beBytes16, take_frameBytes_body]

end Sys2Proof.Machine

/-! SUPPORT. The byte reader's five operations on a stream whose next bytes are given, and what all five leave alone
(spec/41_byte_reader.md R120 to R127). The failing half of each is `exec_reader_fail`. -/

namespace Sys2Proof.Machine

/-- Any byte but 0 and 1 is rejected, and reported (R127). -/
theorem boolCompletion_other {b : Byte} (h0 : b ≠ 0x00#8) (h1 : b ≠ 0x01#8) :
    boolCompletion b = .parseError b := by
  rw [boolCompletion, if_neg h0, if_neg h1]

/-- A read that the transport delivers takes, counts and folds the next bytes of its width, and completes with what it
makes of them (R120). -/
theorem exec_reader_takes {i : Instr} {s : State} {b rest : List Byte} (h : isReader i = true)
    (ha : s.nextRx.answer = .ok) (hrx : s.rx = b ++ rest) (hb : b.length = rxWidth i) :
    exec i s = .next { s with
      rxDraws := s.useRx.rxDraws, rxFree := s.useRx.rxFree,
      rx := rest, count := satAdd s.count b.length, crcRx := crcUpdate s.crcRx b,
      done := s.done ++ [readCompletion i b] } := by
  rw [exec_reader_ok h ha (by simp [hrx, hb]), ← hb, hrx, List.take_left, List.drop_left]

/-- Settles O35: a read takes its width from the front of RX when it delivers and the lost bytes, fewer, when it fails;
the next state of either case has the write side and the port as they were. -/
theorem readersLeaveTheWriteSide : Obligations.ReadersLeaveTheWriteSide := by
  intro i s h
  rcases rx_delivers_or_fails (rxWidth i) s with ⟨ha, hl⟩ | hf
  · exact ⟨_, rxWidth i, exec_reader_ok h ha hl, Nat.le_refl _, rfl, rfl, rfl, rfl, rfl, rfl, rfl, rfl⟩
  · exact ⟨_, lostBytes (rxWidth i) s.nextRx, exec_reader_fail h hf, (lostBytes_lt (rxWidth_pos h) _).le,
      rfl, rfl, rfl, rfl, rfl, rfl, rfl, rfl⟩

/-- Settles O29: a byte that arrives is its own value, and one that does not leaves the transport's error. -/
theorem rdU8ReturnsTheByte : Obligations.RdU8ReturnsTheByte := by
  refine ⟨fun s b rest ha hrx => ?_, fun s => ?_⟩
  · rw [exec_reader_takes (b := [b]) rfl ha hrx rfl, readCompletion, beU8_one]
    rfl
  · rcases rx_delivers_or_fails 1 s with ⟨ha, hl⟩ | hf
    · exact ⟨_, _, exec_reader_ok rfl ha hl, rfl, .inl ⟨_, rfl⟩⟩
    · exact ⟨_, _, exec_reader_fail rfl hf, rfl, .inr (transportError_cases s).symm⟩

/-- Settles O30, by the value of two bytes. -/
theorem rdU16ReturnsBigEndian : Obligations.RdU16ReturnsBigEndian := by
  refine ⟨fun s a b rest ha hrx => ?_, fun s hf => exec_reader_fail rfl hf⟩
  rw [exec_reader_takes (b := [a, b]) rfl ha hrx rfl, readCompletion, beU16, beNat_two]
  rfl

/-- Settles O31, by the value of four bytes. -/
theorem rdU32ReturnsBigEndian : Obligations.RdU32ReturnsBigEndian := by
  refine ⟨fun s a b c d rest ha hrx => ?_, fun s hf => exec_reader_fail rfl hf⟩
  rw [exec_reader_takes (b := [a, b, c, d]) rfl ha hrx rfl, readCompletion, beU32, beNat_four]
  rfl

/-- Settles O32: the pattern is the value of `RD.U32`, retyped (R126). -/
theorem rdF32ReturnsThePattern : Obligations.RdF32ReturnsThePattern := by
  refine ⟨fun s a b c d rest ha hrx => ?_, fun s hf => exec_reader_fail rfl hf⟩
  rw [exec_reader_takes (b := [a, b, c, d]) rfl ha hrx rfl, readCompletion, f32OfBits, beU32, beNat_four]
  rfl

/-- Settles O33: the byte is taken before it is checked, and the check tells 0, 1 and the rest apart. -/
theorem rdBoolAcceptsOnlyZeroAndOne : Obligations.RdBoolAcceptsOnlyZeroAndOne := by
  refine ⟨fun s b rest ha hrx => ⟨boolCompletion b, ?_, ?_, ?_, boolCompletion_other⟩,
    fun s hf => exec_reader_fail rfl hf⟩
  · rw [exec_reader_takes (b := [b]) rfl ha hrx rfl, readCompletion, beU8_one]
    rfl
  · rintro rfl
    rfl
  · rintro rfl
    rfl

end Sys2Proof.Machine

/-! SUPPORT. The decoder against the rows of the operation-code table (spec/30_encoding.md R79, R80, R83): what it
answers is either an operation whose encoding has the same code and operands, or one of its two errors, each for its own
reason. The rows' facts then come from the one row each operation has. -/

namespace Sys2Proof.Machine

/-- A checksum-family code is its pattern and the bit of the register it selects (R80). -/
theorem code_of_family (c : Byte) :
    ∀ p ∈ [0x10#8, 0x12#8, 0x14#8], c &&& 0xFE#8 = p → p ||| (CrcSel.ofBit (c.getLsbD 0)).bit = c := by
  revert c; decide +kernel

/-- Settles O10, constructor by constructor: the code selects the arm, the operand ports carry the operands, and of all
operands only the data of `CRC.UPD` is checked. -/
theorem decodeOfEncodeIsIdentity : Obligations.DecodeOfEncodeIsIdentity := by
  intro i hw
  cases i with
  | crcInit sel => cases sel <;> rfl
  | crcUpd sel data =>
    have hd : data.length ≤ Config.maxData := of_decide_eq_true hw
    cases sel <;> simp [decode, encode, CrcSel.bit, CrcSel.ofBit, hd]
  | crcFin sel => cases sel <;> rfl
  | rdU8 => rfl
  | rdU16 => rfl
  | rdU32 => rfl
  | rdF32 => rfl
  | rdBool => rfl
  | wrFrame cmd payload => simp [decode, encode]
  | endFrame explen => simp [decode, encode]

/-- What the decoder reads has the code of its encoding and, from its own operand ports, their values (R79, R80). -/
theorem decode_instr {c : Command} {i : Instr} (h : decode c = .instr i) :
    i.wellFormed = true ∧ (encode i).code = c.code ∧
    (∀ sel d, i = .crcUpd sel d → d = c.data) ∧ (∀ k p, i = .wrFrame k p → k = c.cmd ∧ p = c.payload) ∧
    (∀ l, i = .endFrame l → l = c.explen) := by
  have family := code_of_family c.code
  simp only [decode] at h
  split_ifs at h with h1 h2 hd h3 h4 h5 h6 h7 h8 h9 h10 <;> cases h
  · exact ⟨rfl, family _ (by simp) h1, by simp, by simp, by simp⟩
  · exact ⟨decide_eq_true hd, family _ (by simp) h2, by simp, by simp, by simp⟩
  · exact ⟨rfl, family _ (by simp) h3, by simp, by simp, by simp⟩
  all_goals exact ⟨rfl, Eq.symm ‹_›, by simp, by simp, by simp⟩

/-- The decoder rejects a code that no row selects, and `CRC.UPD` data that its port cannot hold; nothing else
(R79, R83). -/
theorem decode_error {c : Command} {e : DecodeError} (h : decode c = .error e) :
    (e = .reservedCode c.code ∧ reservedCode c.code = true) ∨
    (e = .dataTooLong c.data.length ∧ 65535 < c.data.length) := by
  simp only [decode] at h
  split_ifs at h with h1 h2 hd h3 h4 h5 h6 h7 h8 h9 h10 <;> cases h
  · exact .inr ⟨rfl, Nat.lt_of_not_le hd⟩
  · have full : ∀ b : Byte, b &&& 0xFF#8 = b := by decide
    simp [reservedCode, opRows, OpRow.selects, full, h1, h2, h3, h4, h5, h6, h7, h8, h9, h10]

/-- Every operation's code selects its own row and no other (R80). -/
theorem ownRow (i : Instr) : Sys2Proof.Laws.OwnRow.Statement i := by
  cases i with
  | crcInit sel => exact Laws.OwnRow.crcInit sel
  | crcUpd sel data => exact Laws.OwnRow.crcUpd sel data
  | crcFin sel => exact Laws.OwnRow.crcFin sel
  | rdU8 => exact Laws.OwnRow.rdU8
  | rdU16 => exact Laws.OwnRow.rdU16
  | rdU32 => exact Laws.OwnRow.rdU32
  | rdF32 => exact Laws.OwnRow.rdF32
  | rdBool => exact Laws.OwnRow.rdBool
  | wrFrame cmd payload => exact Laws.OwnRow.wrFrame cmd payload
  | endFrame explen => exact Laws.OwnRow.endFrame explen

/-- The row of what is decoded is the one row that the code selects (R80). -/
theorem decode_row {c : Command} {i : Instr} (h : decode c = .instr i) :
    ∃ r ∈ opRows, r.mnemonic = i.mnemonic ∧ ∀ q ∈ opRows, q.selects c.code = true ↔ q = r := by
  obtain ⟨-, hcode, -⟩ := decode_instr h
  exact hcode ▸ ownRow i

/-- Settles O11: the operands come from their own ports, and the code from the row. -/
theorem encodeOfDecodeKeepsTheCommand : Obligations.EncodeOfDecodeKeepsTheCommand := by
  intro c i h
  obtain ⟨hw, hcode, hdata, hframe, hlen⟩ := decode_instr h
  refine ⟨hw, hcode, ?_, ?_, ?_⟩
  · rintro sel d rfl
    exact hdata sel d rfl
  · rintro k p rfl
    exact hframe k p rfl
  · rintro l rfl
    exact hlen l rfl

/-- Settles O12: a code that a row selects is not reserved, so with data its port can hold it decodes; and the row of
what is decoded is the only one selected. -/
theorem decoderFollowsTheRows : Obligations.DecoderFollowsTheRows := by
  refine ⟨fun c r hr hsel hlen => ?_, fun c i h => ?_⟩
  · cases h : decode c with
    | instr i =>
      obtain ⟨q, -, hq, huniq⟩ := decode_row h
      exact ⟨i, rfl, by rw [← hq, (huniq r hr).1 hsel]⟩
    | error e =>
      rcases decode_error h with ⟨-, hres⟩ | ⟨-, hlong⟩
      · simpa [hsel] using List.all_eq_true.1 hres r hr
      · omega
  · obtain ⟨r, hr, hm, huniq⟩ := decode_row h
    exact ⟨r, hr, (huniq r hr).2 rfl, hm, fun q hq => (huniq q hq).1⟩

/-- Settles O9, by decoding each word. -/
theorem tableWordsDecode : Obligations.TableWordsDecode := by
  unfold Obligations.TableWordsDecode
  decide

end Sys2Proof.Machine

/-! SUPPORT. One step for each kind of host event, and runs (spec/20_memory.md R53, R56; spec/60_exceptions.md R180;
spec/70_reset_and_hazards.md R210, R211): an allowed event is answered with a next state and an excluded one is refused,
so no step faults and a run of allowed events reaches the end of the host's list. -/

namespace Sys2Proof.Machine

/-- A step on an event the spec allows goes on to the rest of the host's list, with one completion more for an issue
and none for a reset (R53, R180, R210). -/
theorem step_of_allowed {s : State} {e : HostEvent} {rest : List HostEvent} (hp : s.port = e :: rest)
    (ha : e.allowed = true) :
    ∃ t cs, step s = .next t ∧ t.port = rest ∧ t.done = s.done ++ cs ∧ cs.length = if e.isIssue then 1 else 0 := by
  cases e with
  | reset => exact ⟨_, [], step_reset hp, rfl, by simp, rfl⟩
  | issueDuring first second => cases ha
  | resetDuring c => cases ha
  | issue c =>
    cases hd : decode c with
    | instr i =>
      obtain ⟨t, ht⟩ := exec_next i { s with port := rest }
      obtain ⟨⟨x, hdone⟩, hport, -⟩ := exec_forward ht
      exact ⟨t, [x], (step_issue hd hp).trans ht, hport, hdone, rfl⟩
    | error e =>
      cases e with
      | reservedCode k => exact ⟨_, [.illegalOp k], step_reserved hd hp, rfl, rfl, rfl⟩
      | dataTooLong n => simp [HostEvent.allowed, hd] at ha

/-- A step on an event the spec excludes is refused (R56, R211; for over-long data the model's choice). -/
theorem step_of_excluded {s : State} {e : HostEvent} {rest : List HostEvent} (hp : s.port = e :: rest)
    (ha : e.allowed = false) : ∃ r, step s = .refused r := by
  cases e with
  | reset => cases ha
  | issueDuring first second => exact ⟨.concurrentOperations, by simp [step, hp, overlapEvent]⟩
  | resetDuring c => exact ⟨.resetInFlight, by simp [step, hp, resetInFlightEvent]⟩
  | issue c =>
    cases hd : decode c with
    | instr i => simp [HostEvent.allowed, hd] at ha
    | error e =>
      cases e with
      | reservedCode k => simp [HostEvent.allowed, hd] at ha
      | dataTooLong n => exact ⟨.operandTooLong, by simp [step, hp, hd, rejectCommand]⟩

/-- Settles O6, by the kinds of event: an empty port and an allowed event have a next state, an excluded event is
refused; there is no fault to raise. -/
theorem onlyExcludedEventsAreRefused : Obligations.OnlyExcludedEventsAreRefused := by
  refine fun s => ⟨fun f => (nomatch f), ?_, ?_⟩
  · rintro ⟨r, hr⟩
    cases hp : s.port with
    | nil => rw [step_idle hp] at hr; cases hr
    | cons e rest =>
      refine ⟨e, rest, rfl, Bool.eq_false_iff.2 fun ha => ?_⟩
      obtain ⟨t, -, ht, -⟩ := step_of_allowed hp ha
      rw [ht] at hr
      cases hr
  · rintro ⟨e, rest, hp, ha⟩
    exact step_of_excluded hp ha

/-- Settles O7: the completions an allowed issue adds are one. -/
theorem everyIssueGetsExactlyOneCompletion : Obligations.EveryIssueGetsExactlyOneCompletion := by
  intro s c rest hp ha
  obtain ⟨t, cs, ht, hport, hdone, hlen⟩ := step_of_allowed hp ha
  obtain ⟨x, rfl⟩ := List.length_eq_one_iff.1 hlen
  exact ⟨t, x, ht, hdone, hport⟩

/-- Settles O8, by induction on the host's list, one step to each event. -/
theorem runsReachTheEndOfTheList : Obligations.RunsReachTheEndOfTheList := by
  intro s hall
  induction hp : s.port generalizing s with
  | nil => exact ⟨s, core_run_zero s, hp, List.prefix_rfl, rfl⟩
  | cons e rest ih =>
    rw [hp] at hall
    obtain ⟨u, cs, hu, hport, hdone, hlen⟩ := step_of_allowed hp (hall e List.mem_cons_self)
    obtain ⟨t, hrun, hend, hpre, hcount⟩ := ih u (hport ▸ fun e' he' => hall e' (List.mem_cons_of_mem e he')) hport
    refine ⟨t, (core_run_succ hu rest.length).trans hrun, hend, ?_, ?_⟩
    · exact (hdone ▸ List.prefix_append s.done cs).trans hpre
    · rw [hcount, hdone, List.length_append, hlen, List.filter_cons]
      cases e.isIssue <;> simp; omega

/-- Settles O1: the reset event's next state is `step_reset`'s, and `State.reset`'s registers are as defined. -/
theorem hardwareResetClearsThreeRegisters : Obligations.HardwareResetClearsThreeRegisters :=
  ⟨fun _ _ hp => step_reset hp, rfl, rfl, rfl⟩

/-- Settles O2: the two reset events differ in whether an operation is in flight. -/
theorem resetOnlyBetweenOperations : Obligations.ResetOnlyBetweenOperations :=
  ⟨fun s c rest hp => by simp [step, hp, resetInFlightEvent], fun _ _ hp => ⟨_, step_reset hp, rfl, rfl⟩⟩

/-- Settles O3: the overlapping issue is an event of its own, which the step refuses. -/
theorem concurrentIssueIsRefused : Obligations.ConcurrentIssueIsRefused := by
  intro s c d rest hp
  simp [step, hp, overlapEvent]

/-- Settles O4: an encoding decodes to its operation, and a step runs what the command decodes to. -/
theorem stepRunsTheIssuedOperation : Obligations.StepRunsTheIssuedOperation :=
  ⟨fun _ i _ hw hp => step_issue (decodeOfEncodeIsIdentity i hw) hp, fun _ _ _ _ hd hp => step_issue hd hp,
   fun _ hp => step_idle hp⟩

/-- Settles O5: the reserved codes are counted over all 256, and a reserved code is rejected as such. -/
theorem reservedCodesCompleteIllegalOp : Obligations.ReservedCodesCompleteIllegalOp :=
  ⟨by decide +kernel, fun _ _ _ hres hp => step_reserved (decode_reserved hres) hp⟩

end Sys2Proof.Machine

/-! SUPPORT. The algebra of the checksum (spec/40_checksum_engine.md R102, R104, R109): eight shift steps of a state
whose high byte is 0 are one shift by a byte, which is why a table of the high byte is enough; the fold is
linear; and a value folded with its own two bytes vanishes. -/

namespace Sys2Proof.Machine

/-- Shift steps that push out only zero bits are a plain shift. -/
theorem crcShifts_of_low {n : Nat} {t : Half} (h : ∀ k < n, t.getLsbD (15 - k) = false) (hn : n ≤ 15) :
    crcShifts n t = t <<< n := by
  induction n generalizing t with
  | zero => simp [crcShifts]
  | succ n ih =>
    have hrest : ∀ k < n, (t <<< 1).getLsbD (15 - k) = false := fun k hk => by
      rw [BitVec.getLsbD_shiftLeft, show 15 - k - 1 = 15 - (k + 1) by omega, h (k + 1) (by omega), Bool.and_false]
    rw [crcShifts, crcShift_of_low t (h 0 (by omega)), ih hrest (by omega), ← BitVec.shiftLeft_add, Nat.add_comm]

/-- A state with a byte added to its high byte is that high byte, and apart from it the low byte. -/
theorem xor_byte_split (c : Half) (b : Byte) :
    c ^^^ (b.setWidth 16 <<< 8) =
      ((0x0000#16 ^^^ (c.extractLsb' 8 8 ^^^ b).setWidth 16 <<< 8) ^^^ (c.extractLsb' 0 8).setWidth 16) := by
  ext k hk
  by_cases h : k < 8
  · simp [h, BitVec.getLsbD_eq_getElem hk]
  · simp [h, show k - 8 < 8 by omega, show 8 + (k - 8) = k by omega, BitVec.getLsbD_eq_getElem hk]

/-- The low byte is pushed up unchanged: no shift step meets a 1 at the top. -/
theorem crcShifts_low_byte (c : Half) : crcShifts 8 ((c.extractLsb' 0 8).setWidth 16) = c <<< 8 := by
  rw [crcShifts_of_low (fun k hk => by simp [show ¬ 15 - k < 8 by omega]) (by omega)]
  ext k hk
  by_cases h : k < 8
  · simp [h]
  · simp [h, show k - 8 < 8 by omega, BitVec.getLsbD_eq_getElem (show k - 8 < 16 by omega)]

/-- Each printed entry of the table is the step of its index from the zero state. -/
theorem crcTableAt_eq (i : Byte) : crcTableAt i = crcStep 0x0000#16 i := by
  revert i; decide +kernel

/-- The byte-table form (R109). -/
theorem crcStep_eq_table (c : Half) (b : Byte) : crcStep c b = crcStepByTable c b := by
  rw [crcStepByTable, crcTableAt_eq, crcStep, crcStep, xor_byte_split c b, crcShifts_xor, crcShifts_low_byte,
    BitVec.xor_comm]

/-- Settles O14: the table's entries are steps from zero, and the rest of a step is a shift by a byte. -/
theorem byteTableFormIsCrcStep : Obligations.ByteTableFormIsCrcStep :=
  ⟨by decide +kernel, crcTableAt_eq, crcStep_eq_table⟩

/-- One step is linear in the state and the byte together (R104). -/
theorem crcStep_xor (c d : Half) (a b : Byte) : crcStep (c ^^^ d) (a ^^^ b) = crcStep c a ^^^ crcStep d b := by
  rw [crcStep, crcStep, crcStep, ← crcShifts_xor, BitVec.setWidth_xor, BitVec.shiftLeft_xor_distrib]
  congr 1
  ac_rfl

/-- The fold is linear over sequences of one length (R104). -/
theorem crcUpdate_xor (c d : Half) {x y : List Byte} (h : x.length = y.length) :
    crcUpdate (c ^^^ d) (List.zipWith (· ^^^ ·) x y) = crcUpdate c x ^^^ crcUpdate d y := by
  induction x generalizing c d y with
  | nil => cases List.length_eq_zero_iff.1 h.symm; rfl
  | cons a x ih =>
    cases y with
    | nil => cases h
    | cons b y =>
      rw [List.zipWith_cons_cons, crcUpdate_cons, crcStep_xor]
      exact ih _ _ (Nat.succ.inj h)

/-- Settles O15, for one byte by the linearity of the shift steps and for sequences by induction on them. -/
theorem checksumIsLinear : Obligations.ChecksumIsLinear :=
  ⟨crcStep_xor, fun c d _ _ h => crcUpdate_xor c d h⟩

/-- A state folded with its own high byte: the table's entry 0 adds nothing. -/
theorem crcStep_high_byte (c : Half) : crcStep c (c.extractLsb' 8 8) = c <<< 8 := by
  rw [crcStep_eq_table, crcStepByTable, BitVec.xor_self, show crcTableAt 0#8 = 0#16 from rfl, BitVec.xor_zero]

/-- A state folded with its own two bytes is zero: after the high byte, what was the low byte is the high one (R104). -/
theorem crcUpdate_beBytes16 (c : Half) : crcUpdate c (beBytes16 c) = 0x0000#16 := by
  have hlow : (c <<< 8).extractLsb' 8 8 = c.extractLsb' 0 8 := by
    ext k hk
    simp
    omega
  rw [beBytes16, crcUpdate_cons, crcStep_high_byte, ← hlow, crcUpdate_cons, crcStep_high_byte, crcUpdate_nil,
    ← BitVec.shiftLeft_add, BitVec.shiftLeft_eq_zero (by omega)]

/-- Settles O16: the checksum is folded from the state it is equal to. -/
theorem frameWithItsChecksumFoldsToZero : Obligations.FrameWithItsChecksumFoldsToZero := by
  have residue : ∀ m : List Byte, crcUpdate 0x0000#16 (m ++ beBytes16 (crcUpdate 0x0000#16 m)) = 0x0000#16 :=
    fun m => by rw [crcUpdate_append, crcUpdate_beBytes16]
  exact ⟨residue, fun cmd p => residue (frameBody cmd p)⟩

/-- Zero bytes leave the zero state (R104). -/
theorem crcUpdate_zeros (n : Nat) : crcUpdate 0x0000#16 (List.replicate n 0x00#8) = 0x0000#16 := by
  induction n with
  | zero => rfl
  | succ n ih => rwa [List.replicate_succ, crcUpdate_cons, show crcStep 0x0000#16 0x00#8 = 0x0000#16 from rfl]

/-- Settles O17: the zeros are folded first and leave the initial state. -/
theorem leadingZeroBytesAreInvisible : Obligations.LeadingZeroBytesAreInvisible := by
  intro n m
  rw [checksum_eq, crcUpdate_append, crcUpdate_zeros, checksum_eq]

/-- Settles O19: by linearity the difference pattern's checksum is added to the sequence's. -/
theorem undetectedCorruptionsAreThoseOfChecksumZero : Obligations.UndetectedCorruptionsAreThoseOfChecksumZero := by
  intro m d h
  have hsum : checksum (List.zipWith (· ^^^ ·) m d) = checksum m ^^^ checksum d :=
    crcUpdate_xor 0x0000#16 0x0000#16 h.symm
  have hcancel : checksum m ^^^ checksum d = checksum m ^^^ 0x0000#16 ↔ checksum d = 0x0000#16 :=
    BitVec.xor_right_inj (checksum m)
  rw [hsum, ← hcancel, BitVec.xor_zero]

/-- `crc_update` is the library's fold (R102). -/
theorem crcUpdate_eq_foldl (c : Half) (x : List Byte) : crcUpdate c x = x.foldl crcStep c := by
  induction x generalizing c with
  | nil => rfl
  | cons b x ih => exact ih _

/-- Settles O13, both halves by induction on the first sequence. -/
theorem updateIsTheLeftFold : Obligations.UpdateIsTheLeftFold :=
  fun c x y => ⟨crcUpdate_eq_foldl c x, crcUpdate_append c x y⟩

/-- Settles O18, by folding the nine bytes. -/
theorem checkValueIsXmodem : Obligations.CheckValueIsXmodem := by
  unfold Obligations.CheckValueIsXmodem
  decide +kernel

end Sys2Proof.Machine

/-! SUPPORT. The polynomial reading of the checksum (spec/40_checksum_engine.md R101): a state is the polynomial of its
bits over GF(2), a shift step is multiplication by x modulo the generator, and so folding a byte is what appending it to
the message does to the remainder. Congruence modulo the generator is equality in `AdjoinRoot generator`. -/

namespace Sys2Proof.Machine

open Polynomial

/-- A bit as a coefficient over GF(2). -/
noncomputable def bitCoeff (b : Bool) : (ZMod 2)[X] := if b then 1 else 0

/-- The polynomial of a word's bits, bit `i` the coefficient of `x^i`. -/
noncomputable def bitPoly {w : Nat} (v : BitVec w) : (ZMod 2)[X] :=
  ∑ i ∈ Finset.range w, bitCoeff (v.getLsbD i) * X ^ i

/-- The polynomial of a bit string, the last bit the constant coefficient (R101). -/
noncomputable def msbPoly (l : List Bool) : (ZMod 2)[X] := l.foldl (fun p b => p * X + bitCoeff b) 0

/-- `x^16 + x^12 + x^5 + 1`, the generator (R101). -/
noncomputable def generator : (ZMod 2)[X] := X ^ 16 + X ^ 12 + X ^ 5 + 1

theorem generator_monic : generator.Monic := by
  unfold generator; monicity!

theorem generator_degree : generator.degree = (16 : Nat) := by
  unfold generator; compute_degree!

@[simp] theorem bitCoeff_false : bitCoeff false = 0 := rfl

@[simp] theorem bitCoeff_true : bitCoeff true = 1 := rfl

/-- Exclusive or is addition in characteristic 2. -/
theorem bitCoeff_xor (a b : Bool) : bitCoeff (a ^^ b) = bitCoeff a + bitCoeff b := by
  cases a <;> cases b <;> simp [CharTwo.add_self_eq_zero]

theorem bitPoly_xor {w : Nat} (u v : BitVec w) : bitPoly (u ^^^ v) = bitPoly u + bitPoly v := by
  simp [bitPoly, bitCoeff_xor, add_mul, Finset.sum_add_distrib]

/-- A word's polynomial has a degree below its width. -/
theorem bitPoly_degree_lt {w : Nat} (v : BitVec w) : (bitPoly v).degree < w := by
  rw [← mem_degreeLT]
  refine Submodule.sum_mem _ fun i hi => mem_degreeLT.2 ?_
  rw [Finset.mem_range] at hi
  cases v.getLsbD i with
  | false => simp
  | true => simpa using hi

/-! The next facts are about sums of 8 or 16 terms, written out and compared term by term. -/

/-- A byte placed in the high byte of a state is multiplied by `x^8`. -/
theorem bitPoly_high_byte (b : Byte) : bitPoly (b.setWidth 16 <<< 8) = bitPoly b * X ^ 8 := by
  simp [bitPoly, Finset.sum_range_succ]
  ring

/-- A state is the polynomials of its two bytes, the high one eight places up. -/
theorem bitPoly_bytes (v : Half) :
    bitPoly v = bitPoly (v.extractLsb' 8 8) * X ^ 8 + bitPoly (v.extractLsb' 0 8) := by
  simp [bitPoly, Finset.sum_range_succ]
  ring

/-- Shifting by one place is multiplication by x, but for the bit that is pushed out. -/
theorem bitPoly_shiftLeft_one (t : Half) :
    bitPoly (t <<< 1) = bitPoly t * X + bitCoeff (t.getLsbD 15) * X ^ 16 := by
  rw [← CharTwo.add_eq_iff_eq_add]
  simp [bitPoly, Finset.sum_range_succ]
  ring

theorem bitPoly_crcPoly : bitPoly Config.crcPoly = X ^ 12 + X ^ 5 + 1 := by
  simp [bitPoly, Finset.sum_range_succ, Config.crcPoly]
  ring

@[simp] theorem msbPoly_nil : msbPoly [] = 0 := rfl

/-- Appending a byte to a bit string multiplies by `x^8` and adds the byte (R101). -/
theorem msbPoly_append_byte (l : List Bool) (b : Byte) :
    msbPoly (l ++ byteBits b) = msbPoly l * X ^ 8 + bitPoly b := by
  simp [msbPoly, byteBits, bitPoly, Finset.sum_range_succ]
  ring

/-- The two bytes of a state as a bit string denote its polynomial. -/
theorem msbPoly_beBytes16 (v : Half) : msbPoly (bitString (beBytes16 v)) = bitPoly v := by
  calc msbPoly (bitString (beBytes16 v))
      = msbPoly ([] ++ byteBits (v.extractLsb' 8 8) ++ byteBits (v.extractLsb' 0 8)) := by simp [bitString, beBytes16]
    _ = bitPoly (v.extractLsb' 8 8) * X ^ 8 + bitPoly (v.extractLsb' 0 8) := by
      rw [msbPoly_append_byte, msbPoly_append_byte, msbPoly_nil, zero_mul, zero_add]
    _ = bitPoly v := (bitPoly_bytes v).symm

/-- A shift step multiplies by x and, when a bit is pushed out, adds the generator. -/
theorem bitPoly_crcShift (t : Half) :
    bitPoly (crcShift t) = bitPoly t * X + bitCoeff (t.getLsbD 15) * generator := by
  cases ht : t.getLsbD 15 with
  | false => rw [crcShift_of_low t ht, bitPoly_shiftLeft_one, ht]; simp
  | true =>
    rw [crcShift, if_pos ht, bitPoly_xor, bitPoly_shiftLeft_one, bitPoly_crcPoly, ht, generator, bitCoeff_true]
    ring

/-- Modulo the generator, `n` shift steps are multiplication by `x^n` (R101). -/
theorem mk_bitPoly_crcShifts (n : Nat) (t : Half) :
    AdjoinRoot.mk generator (bitPoly (crcShifts n t)) = AdjoinRoot.mk generator (bitPoly t * X ^ n) := by
  induction n generalizing t with
  | zero => rw [pow_zero, mul_one, crcShifts]
  | succ n ih =>
    rw [crcShifts, ih, bitPoly_crcShift, pow_succ']
    simp [mul_assoc]

/-- A state that is congruent to a message shifted by sixteen places stays so when bytes are folded and appended. -/
theorem mk_bitPoly_crcUpdate {c : Half} {l : List Bool} (m : List Byte)
    (h : AdjoinRoot.mk generator (bitPoly c) = AdjoinRoot.mk generator (msbPoly l * X ^ 16)) :
    AdjoinRoot.mk generator (bitPoly (crcUpdate c m)) =
      AdjoinRoot.mk generator (msbPoly (l ++ bitString m) * X ^ 16) := by
  induction m generalizing c l with
  | nil => simpa [bitString] using h
  | cons b m ih =>
    have hstep : AdjoinRoot.mk generator (bitPoly (crcStep c b)) =
        AdjoinRoot.mk generator (msbPoly (l ++ byteBits b) * X ^ 16) := by
      rw [crcStep, mk_bitPoly_crcShifts, bitPoly_xor, bitPoly_high_byte, msbPoly_append_byte, map_mul, map_add, h]
      simp only [← map_mul, ← map_add]
      ring_nf
    simpa [bitString] using ih hstep

/-- Settles O20: the checksum is congruent to the shifted message and has a lower degree than the generator, so it is
the remainder. -/
theorem checksumIsThePolynomialRemainder : Obligations.ChecksumIsThePolynomialRemainder := by
  intro m
  have hcong : generator ∣ msbPoly (bitString m) * X ^ 16 - bitPoly (checksum m) :=
    AdjoinRoot.mk_eq_mk.1 (mk_bitPoly_crcUpdate (l := []) m (by simp [bitPoly])).symm
  have hdeg : (bitPoly (checksum m)).degree < generator.degree := by
    rw [generator_degree]
    exact bitPoly_degree_lt _
  have hrem : msbPoly (bitString (beBytes16 (checksum m))) = msbPoly (bitString m) * X ^ 16 %ₘ generator := by
    rw [msbPoly_beBytes16, modByMonic_eq_of_dvd_sub generator_monic hcong,
      (modByMonic_eq_self_iff generator_monic).2 hdeg]
  exact hrem

end Sys2Proof.Machine

/-! SUPPORT. The checksum engine's operations and the writers of the three registers (spec/10_state.md R21 to R23;
spec/40_checksum_engine.md R105 to R108): for each register, which operations write it and what, and that no other
does. -/

namespace Sys2Proof.Machine

/-- Settles O21: `CRC.INIT` on either register. -/
theorem crcInitClearsTheRegister : Obligations.CrcInitClearsTheRegister := fun _ => ⟨rfl, rfl⟩

/-- Settles O22: `CRC.UPD` on either register. -/
theorem crcUpdFoldsTheData : Obligations.CrcUpdFoldsTheData := fun _ _ => ⟨rfl, rfl⟩

/-- Settles O23: `CRC.FIN` on either register. -/
theorem crcFinReturnsTheRegister : Obligations.CrcFinReturnsTheRegister := fun _ => ⟨rfl, rfl⟩

/-- Settles O24: the register is cleared, folds the data and is returned. -/
theorem crcCalcReturnsTheChecksum : Obligations.CrcCalcReturnsTheChecksum := by
  intro s data
  rw [crcCalc, execAll_cons (crcInitClearsTheRegister s).2, execAll_cons (crcUpdFoldsTheData _ data).2,
    execAll_cons (crcFinReturnsTheRegister _).2, execAll_nil]
  simp [checksum_eq]

/-- The operations that are no read, no write and no close are the engine's three (R15). -/
theorem engine_cases {i : Instr} (hr : isReader i = false) (hw : isWrFrame i = false) (hc : isEndFrame i = false) :
    (∃ sel, i = .crcInit sel) ∨ (∃ sel data, i = .crcUpd sel data) ∨ ∃ sel, i = .crcFin sel := by
  cases i <;> simp_all [isReader, isWrFrame, isEndFrame]

/-- The engine's operations change nothing but the checksum registers and the completions (R105 to R107). -/
theorem exec_engine {i : Instr} {s t : State} (hr : isReader i = false) (hw : isWrFrame i = false)
    (hc : isEndFrame i = false) (he : exec i s = .next t) :
    t = { s with crcRx := t.crcRx, crcTx := t.crcTx, done := t.done } := by
  rcases engine_cases hr hw hc with ⟨sel, rfl⟩ | ⟨sel, data, rfl⟩ | ⟨sel, rfl⟩
  · cases sel <;> (cases he; rfl)
  · cases sel <;> (cases he; rfl)
  · cases he; rfl

/-- Settles O28, by the whole next state of an engine operation. -/
theorem engineOperationsTouchNoStream : Obligations.EngineOperationsTouchNoStream := by
  intro i s hr hw hc
  obtain ⟨t, ht⟩ := exec_next i s
  rw [exec_engine hr hw hc ht] at ht
  exact ⟨_, ht, rfl, rfl, rfl, rfl, rfl, rfl, rfl, rfl⟩

theorem isEndFrame_iff {i : Instr} : isEndFrame i = true ↔ ∃ l, i = .endFrame l := by
  cases i <;> simp [isEndFrame]

theorem isWrFrame_iff {i : Instr} : isWrFrame i = true ↔ ∃ cmd p, i = .wrFrame cmd p := by
  cases i <;> simp [isWrFrame]

/-- Settles O25: the reads fold what they consumed, a close clears, and of the engine's operations only those that
bypass the counter write `CRC[0]`. -/
theorem readSideRegisterWriters : Obligations.ReadSideRegisterWriters := by
  refine ⟨hwReset_crcRx, fun i s => ?_⟩
  obtain ⟨t, ht⟩ := exec_next i s
  refine ⟨t, ht, ?_, ?_, ?_, ?_, ?_⟩
  · intro hr
    obtain ⟨hcrc, -⟩ := exec_reader_registers hr ht
    exact hcrc
  · intro hc
    obtain ⟨l, rfl⟩ := isEndFrame_iff.1 hc
    obtain ⟨hcrc, -⟩ := exec_endFrame_registers ht
    exact hcrc
  · rintro rfl
    cases ht
    rfl
  · rintro d rfl
    cases ht
    rfl
  · intro hr hc hb
    obtain ⟨hcrc, -⟩ := exec_keeps_crcRx_count hr hc hb ht
    exact hcrc

/-- An operation that is no `WR.FRAME` and neither `CRC.INIT 1` nor `CRC.UPD 1` leaves `CRC[1]` (R22). -/
theorem exec_keeps_crcTx {i : Instr} {s t : State} (hw : isWrFrame i = false) (hinit : i ≠ .crcInit .tx)
    (hupd : ∀ d, i ≠ .crcUpd .tx d) (he : exec i s = .next t) : t.crcTx = s.crcTx := by
  by_cases hr : isReader i = true
  · obtain ⟨-, -, hcrc, -⟩ := exec_reader_registers hr he
    exact hcrc
  by_cases hc : isEndFrame i = true
  · obtain ⟨l, rfl⟩ := isEndFrame_iff.1 hc
    obtain ⟨-, -, hcrc, -⟩ := exec_endFrame_registers he
    exact hcrc
  rw [Bool.not_eq_true] at hr hc
  rcases engine_cases hr hw hc with ⟨sel, rfl⟩ | ⟨sel, data, rfl⟩ | ⟨sel, rfl⟩
  · cases sel with
    | rx => cases he; rfl
    | tx => exact absurd rfl hinit
  · cases sel with
    | rx => cases he; rfl
    | tx => exact absurd rfl (hupd data)
  · cases he; rfl

/-- Settles O26: `WR.FRAME` keeps the checksum of the body it means to put unless it refuses, and of the engine's
operations only those that select it write `CRC[1]`. -/
theorem writeSideRegisterWriters : Obligations.WriteSideRegisterWriters := by
  refine ⟨hwReset_crcTx, fun i s => ?_⟩
  obtain ⟨t, ht⟩ := exec_next i s
  refine ⟨t, ht, ?_, ?_, ?_, ?_, fun hw hinit hupd => exec_keeps_crcTx hw hinit hupd ht⟩
  · rintro cmd p rfl hp
    obtain ⟨-, hcrc, -⟩ := exec_wrFrame_registers ht
    exact hcrc hp
  · rintro cmd p rfl hp
    obtain ⟨-, -, heq⟩ := exec_wrFrame_registers ht
    rw [heq hp]
  · rintro rfl
    cases ht
    rfl
  · rintro d rfl
    cases ht
    rfl

/-- An operation that is no read and no close leaves `COUNT` (R23). -/
theorem exec_keeps_count {i : Instr} {s t : State} (hr : isReader i = false) (hc : isEndFrame i = false)
    (he : exec i s = .next t) : t.count = s.count := by
  cases hw : isWrFrame i with
  | true =>
    obtain ⟨cmd, p, rfl⟩ := isWrFrame_iff.1 hw
    obtain ⟨⟨-, hcount, -⟩, -⟩ := exec_wrFrame_registers he
    exact hcount
  | false => rw [exec_engine hr hw hc he]

/-- A read adds its width to `COUNT` if its completion says it consumed its bytes, and nothing otherwise (R23, R122). -/
theorem exec_reader_count {i : Instr} {s t : State} {x : Completion} (h : isReader i = true)
    (he : exec i s = .next t) (hx : t.done = s.done ++ [x]) :
    t.count.toNat = min (s.count.toNat + if x.consumed then rxWidth i else 0) 4294967295 := by
  rcases rx_delivers_or_fails (rxWidth i) s with ⟨ha, hl⟩ | hf
  · rw [exec_reader_ok h ha hl] at he
    cases he
    obtain rfl := List.singleton_inj.1 (List.append_cancel_left hx)
    rw [readCompletion_consumed, if_pos rfl, satAdd_toNat]
  · rw [exec_reader_fail h hf] at he
    cases he
    obtain rfl := List.singleton_inj.1 (List.append_cancel_left hx)
    have := s.count.isLt
    simp only [transportError_consumed, Bool.false_eq_true, if_false]
    omega

/-- Settles O27: the reads by their completion, the close and the rest by their own rules. -/
theorem countWriters : Obligations.CountWriters := by
  refine ⟨hwReset_count, fun i s => ?_⟩
  obtain ⟨t, ht⟩ := exec_next i s
  obtain ⟨⟨x, hx⟩, -⟩ := exec_forward ht
  refine ⟨t, x, ht, hx, fun hr => exec_reader_count hr ht hx, fun hc => ?_, fun hr hc => exec_keeps_count hr hc ht⟩
  obtain ⟨l, rfl⟩ := isEndFrame_iff.1 hc
  obtain ⟨-, hcount, -⟩ := exec_endFrame_registers ht
  exact hcount

end Sys2Proof.Machine

/-! SUPPORT. Lists of reads and failed reads (spec/20_memory.md R47; spec/41_byte_reader.md R121, R122;
spec/30_encoding.md R85): reads that the transport delivers fold, count and take exactly the bytes they were
given, however those are grouped, and complete with the values of their groups. -/

namespace Sys2Proof.Machine

/-- Settles O34: the failed read's next state, with the number of lost bytes below the width. -/
theorem failedReadChangesNoRegister : Obligations.FailedReadChangesNoRegister :=
  fun _ s h hf => ⟨_, rfl, lostBytes_lt (rxWidth_pos h) s.nextRx, exec_reader_fail h hf⟩

/-- Settles O36: a failed read leaves the two registers that make the boundary. -/
theorem failedReadAtBoundaryStaysThere : Obligations.FailedReadAtBoundaryStaysThere :=
  fun _ _ h hb hf => ⟨_, exec_reader_fail h hf, hb⟩

/-- The completions of a list of reads that take the bytes `b`, each read the next of its width (R120). -/
def readCompletions : List Instr → List Byte → List Completion
  | [], _ => []
  | i :: is, b => readCompletion i (b.take (rxWidth i)) :: readCompletions is (b.drop (rxWidth i))

/-- `t` is `s` once the bytes `b` have been read with completions `cs`, the stream now at `rest`: they are folded and
counted, and beside that only the transport's answers to `RxTake` are used up (R120). -/
def ReadFrom (s : State) (b rest : List Byte) (cs : List Completion) (t : State) : Prop :=
  t = { s with
    rxDraws := t.rxDraws, rxFree := t.rxFree,
    rx := rest, count := satAdd s.count b.length, crcRx := crcUpdate s.crcRx b, done := s.done ++ cs }

theorem ReadFrom.nil (s : State) : ReadFrom s [] s.rx [] s := by
  simp [ReadFrom]

/-- Reading two pieces one after the other is reading both (R47). -/
theorem ReadFrom.append {s t u : State} {b d rest rest' : List Byte} {cs ds : List Completion}
    (h : ReadFrom s b rest' cs t) (h' : ReadFrom t d rest ds u) : ReadFrom s (b ++ d) rest (cs ++ ds) u := by
  unfold ReadFrom at *
  rw [h', h]
  simp [satAdd_satAdd, crcUpdate_append]

theorem ReadFrom.rx {s t : State} {b rest : List Byte} {cs : List Completion} (h : ReadFrom s b rest cs t) :
    t.rx = rest := by
  rw [h]

/-- One read that the transport delivers, and the answers to come beyond it (R120). -/
theorem exec_read {i : Instr} {s : State} {b rest : List Byte} {k : Nat} (h : isReader i = true)
    (hrx : s.rx = b ++ rest) (hb : b.length = rxWidth i) (hok : rxOk (k + 1) s) :
    ∃ t, exec i s = .next t ∧ ReadFrom s b rest [readCompletion i b] t ∧ rxOk k t := by
  obtain ⟨ha, hok⟩ := hok
  exact ⟨_, exec_reader_takes h ha hrx hb, rfl, Iff.mpr (rxOk_congr (t := s.useRx) rfl rfl) hok⟩

/-- Reads that the transport delivers take the bytes they were given, whatever their grouping, and leave the answers to
come beyond them (R47, R120). -/
theorem execAll_reads {is : List Instr} {s : State} {b rest : List Byte} {k : Nat} (hr : ∀ i ∈ is, isReader i = true)
    (hrx : s.rx = b ++ rest) (hb : b.length = (is.map rxWidth).sum) (hok : rxOk (is.length + k) s) :
    ∃ t, execAll is s = .next t ∧ ReadFrom s b rest (readCompletions is b) t ∧ rxOk k t := by
  induction is generalizing s b with
  | nil =>
    obtain rfl := List.length_eq_zero_iff.1 hb
    exact ⟨s, rfl, by simpa [hrx, readCompletions] using ReadFrom.nil s, by simpa using hok⟩
  | cons i is ih =>
    rw [List.map_cons, List.sum_cons] at hb
    rw [List.length_cons, Nat.add_right_comm] at hok
    have hsplit : b.take (rxWidth i) ++ b.drop (rxWidth i) = b := List.take_append_drop _ b
    obtain ⟨t, ht, hread, hmore⟩ := exec_read (b := b.take (rxWidth i)) (rest := b.drop (rxWidth i) ++ rest)
      (hr i List.mem_cons_self) (by rw [← List.append_assoc, hsplit, hrx]) (by rw [List.length_take]; omega) hok
    obtain ⟨u, hu, hreads, hrest⟩ := ih (fun j hj => hr j (List.mem_cons_of_mem i hj)) hread.rx
      (by rw [List.length_drop]; omega) hmore
    have hall := hread.append hreads
    rw [hsplit] at hall
    exact ⟨u, (execAll_cons ht is).trans hu, hall, hrest⟩

/-- Settles O37: both lists take the same bytes, the first of the stream. -/
theorem groupingOfReadsIsInvisible : Obligations.GroupingOfReadsIsInvisible := by
  intro is js s his hjs hsum hlen hoki hokj
  have hrx : s.rx = s.rx.take (is.map rxWidth).sum ++ s.rx.drop (is.map rxWidth).sum := by simp
  have hb : (s.rx.take (is.map rxWidth).sum).length = (is.map rxWidth).sum := List.length_take_of_le hlen
  obtain ⟨t, ht, htr, -⟩ := execAll_reads (k := 0) his hrx hb hoki
  obtain ⟨u, hu, hur, -⟩ := execAll_reads (k := 0) hjs hrx (hb.trans hsum) hokj
  refine ⟨t, u, ht, hu, ?_⟩
  rw [htr, hur]
  exact ⟨rfl, rfl, rfl⟩

/-- Settles O38: the values are those of the four bytes and of their halves. -/
theorem oneU32IsTwoU16 : Obligations.OneU32IsTwoU16 := by
  intro s a b c d rest hrx hok
  have hrx' : s.rx = [a, b, c, d] ++ rest := hrx
  obtain ⟨t, ht, htr, -⟩ := exec_read (i := .rdU32) rfl hrx' rfl hok
  obtain ⟨u, hu, hur, -⟩ := execAll_reads (is := [.rdU16, .rdU16]) (k := 0) (by decide) hrx' rfl hok
  refine ⟨t, u, beU32 [a, b, c, d], beU16 [a, b], beU16 [c, d], ht, hu, ?_, ?_, ?_⟩
  · rw [htr]; rfl
  · rw [hur]; rfl
  · simp only [beU32_toNat, beU16_toNat]
    omega

/-- The operation that ended last completed `Ok`. -/
theorem lastOk_of_ok {s : State} {cs : List Completion} {v : Value} (h : s.done = cs ++ [.ok v]) :
    lastOk s = true := by
  simp [lastOk, h]

/-- A failed `RxTake` is no `Ok` (R122). -/
theorem lastOk_of_transportError {s t : State} {cs : List Completion} (h : t.done = cs ++ [transportError s]) :
    lastOk t = false := by
  rcases transportError_cases s with he | he <;> simp [lastOk, h, he]

/-- A list of one operation is that operation. -/
theorem execAll_singleton (i : Instr) (s : State) : execAll [i] s = exec i s := by
  obtain ⟨t, ht⟩ := exec_next i s
  rw [execAll_cons ht, execAll_nil, ht]

/-- Settles O39: a delivered length completes `Ok` and the command is read next; a failed one does not. -/
theorem rdHdrStopsAtAFailedLength : Obligations.RdHdrStopsAtAFailedLength := by
  refine fun s => ⟨fun a b rest ha hrx => ?_, fun hf => ?_⟩
  · have hexec := exec_reader_takes (i := .rdU16) (b := [a, b]) rfl ha hrx rfl
    rw [execAll_cons hexec, execAll_singleton, rdHdr, hexec]
    exact if_pos (lastOk_of_ok (cs := s.done) (v := .u16 (beU16 [a, b])) rfl)
  · have hexec := exec_reader_fail (i := .rdU16) rfl hf
    rw [rdHdr, hexec]
    exact if_neg (Bool.eq_false_iff.1 (lastOk_of_transportError (s := s) (cs := s.done) rfl))

end Sys2Proof.Machine

/-! SUPPORT. The frame codec's two operations (spec/42_frame_codec.md R150 to R161): the next states of `WR.FRAME` are
those of `exec_wrFrame_ok`, `_io` and `_long`, and those of `END.FRAME` of `exec_endFrame_ok` and `_fail`; here stand
the bytes they speak of and the order of the close's checks. -/

namespace Sys2Proof.Machine

/-- The two bytes of a number that 16 bits hold, by division (R9). -/
theorem beBytes16_ofNat {n : Nat} (h : n < 65536) :
    beBytes16 (BitVec.ofNat 16 n) = [BitVec.ofNat 8 (n / 256), BitVec.ofNat 8 (n % 256)] := by
  have hhigh : (BitVec.ofNat 16 n).extractLsb' 8 8 = BitVec.ofNat 8 (n / 256) := by
    apply BitVec.eq_of_toNat_eq
    simp [BitVec.extractLsb'_toNat, Nat.shiftRight_eq_div_pow, Nat.mod_eq_of_lt h]
  have hlow : (BitVec.ofNat 16 n).extractLsb' 0 8 = BitVec.ofNat 8 (n % 256) := by
    apply BitVec.eq_of_toNat_eq
    simp [BitVec.extractLsb'_toNat]
  rw [beBytes16, hhigh, hlow]

/-- Settles O42: the body with its length field written out by division. -/
theorem wrFrameEmitsTheFrame : Obligations.WrFrameEmitsTheFrame := by
  intro s cmd p hp ha
  refine ⟨frameBody cmd p, checksum (frameBody cmd p), ?_, checksum_eq _, exec_wrFrame_ok cmd hp ha⟩
  rw [frameBody, frameLength, Config.frameOverhead, beBytes16_ofNat (by omega)]
  rfl

/-- Settles O43: the payload is refused before anything is written or put. -/
theorem wrFrameRefusesLongPayloads : Obligations.WrFrameRefusesLongPayloads :=
  fun _ cmd _ hp => exec_wrFrame_long cmd hp

/-- Settles O44: what is put is the frame cut to the number accepted. -/
theorem wrFrameFailureLeavesAPrefix : Obligations.WrFrameFailureLeavesAPrefix :=
  fun _ cmd p hp ha =>
    ⟨_, List.take_prefix _ _, by rw [List.length_take, frameBytes_length], exec_wrFrame_io cmd hp ha⟩

/-- Settles O45, by what `WR.FRAME` does in all its cases. -/
theorem wrFrameLeavesTheReadSide : Obligations.WrFrameLeavesTheReadSide := by
  intro s cmd p
  obtain ⟨t, ht⟩ := exec_next (.wrFrame cmd p) s
  obtain ⟨hread, -⟩ := exec_wrFrame_registers ht
  obtain ⟨-, hport, -⟩ := exec_forward ht
  exact ⟨t, ht, hread, hport⟩

/-- Settles O46, by the three cases of `WR.FRAME`, in which both states are together since the transport's answer to a
write depends on the write side only. -/
theorem emittedFrameIgnoresTheReadSide : Obligations.EmittedFrameIgnoresTheReadSide := by
  rintro s t cmd p ⟨htx, hdraws, hfree⟩
  obtain ⟨hnext, hdraws', hfree'⟩ := nextTx_congr hdraws hfree
  by_cases hp : p.length ≤ 65530
  · cases ha : s.nextTx.answer with
    | ok =>
      exact ⟨_, _, _, exec_wrFrame_ok cmd hp ha, exec_wrFrame_ok cmd hp (hnext ▸ ha),
        ⟨by rw [htx], hdraws', hfree'⟩, rfl, rfl, fun _ => rfl⟩
    | io =>
      exact ⟨_, _, _, exec_wrFrame_io cmd hp ha, exec_wrFrame_io cmd hp (hnext ▸ ha),
        ⟨by rw [htx, hnext], hdraws', hfree'⟩, rfl, rfl, fun _ => rfl⟩
  · have hlong : 65530 < p.length := by omega
    exact ⟨_, _, _, exec_wrFrame_long cmd hlong, exec_wrFrame_long cmd hlong,
      ⟨htx, hdraws, hfree⟩, rfl, rfl, fun h => absurd h hp⟩

/-- The order of the close's checks on a trailer that arrived (R154, R192). -/
theorem closeCompletion_ok (explen computed : Half) (n : Word) (b : List Byte) :
    closeCompletion explen computed n (.ok b) =
      if n.toNat + 2 ≠ explen.toNat then .sizeMismatch explen n
      else if computed ≠ beU16 b then .checksumMismatch computed (beU16 b)
      else .ok .none := by
  simp [closeCompletion, sizeMatches, checksumMatches, Config.trailerLen]

/-- A close whose two bytes are given takes them and leaves the rest (R154). -/
theorem exec_endFrame_takes {s : State} (explen : Half) {b rest : List Byte} (ha : s.nextRx.answer = .ok)
    (hrx : s.rx = b ++ rest) (hb : b.length = 2) :
    exec (.endFrame explen) s = .next { s with
      rxDraws := s.useRx.rxDraws, rxFree := s.useRx.rxFree,
      rx := rest, crcRx := 0x0000#16, count := 0#32,
      done := s.done ++ [closeCompletion explen s.crcRx s.count (.ok b)] } := by
  rw [exec_endFrame_ok explen ha (by simp [hrx, hb]), ← hb, hrx, List.take_left, List.drop_left]

/-- Settles O47: the delivered close by the order of its checks, the failed one by the transport's error. -/
theorem endFrameChecksSizeThenChecksum : Obligations.EndFrameChecksSizeThenChecksum := by
  refine ⟨fun s explen a b rest ha hrx => ⟨_, exec_endFrame_takes (b := [a, b]) explen ha hrx rfl, ?_⟩,
    fun s explen hf => exec_endFrame_fail explen hf⟩
  rw [closeCompletion_ok, beU16, beNat_two]

/-- Settles O48: neither check finds a difference. -/
theorem endFrameAcceptsAMatchingFrame : Obligations.EndFrameAcceptsAMatchingFrame := by
  intro s explen rest ha hrx hsize
  rw [exec_endFrame_takes explen ha hrx (beBytes16_length _), closeCompletion_ok, beU16_beBytes16,
    if_neg (not_not.2 hsize), if_neg (not_not.2 rfl)]

/-- Settles O49, by what a close does to the registers whatever it reports. -/
theorem endFrameAlwaysMakesABoundary : Obligations.EndFrameAlwaysMakesABoundary := by
  intro s explen
  obtain ⟨t, ht⟩ := exec_next (.endFrame explen) s
  obtain ⟨hcrc, hcount, hcrcTx, hwrite⟩ := exec_endFrame_registers ht
  obtain ⟨-, hport, -⟩ := exec_forward ht
  exact ⟨t, ht, ⟨hcount, hcrc⟩, hcrcTx, hwrite, hport⟩

/-- A delivered close whose count disagrees reports the size, whatever the checksum (R157). -/
theorem closeCompletion_size {explen : Half} {n : Word} (computed : Half) (b : List Byte)
    (h : n.toNat + 2 ≠ explen.toNat) : closeCompletion explen computed n (.ok b) = .sizeMismatch explen n := by
  rw [closeCompletion_ok, if_pos h]

/-- Settles O50: a length of 0 or 1 is below the trailer's two bytes, so no count agrees with it. -/
theorem sizeMismatchIgnoresTheChecksum : Obligations.SizeMismatchIgnoresTheChecksum := by
  intro s explen ha hl h
  have hsize : s.count.toNat + 2 ≠ explen.toNat := by
    rcases h with h | rfl | rfl
    · exact h
    · simp
    · simp
  exact ⟨_, exec_endFrame_ok explen ha hl, by rw [closeCompletion_size _ _ hsize], rfl, rfl⟩

/-- Settles O51: fewer than two bytes are lost, and the transport's error is the completion. -/
theorem closeReportsTransportErrorFirst : Obligations.CloseReportsTransportErrorFirst :=
  fun s explen hf => ⟨_, lostBytes 2 s.nextRx, exec_endFrame_fail explen hf, ⟨rfl, rfl⟩,
    Nat.le_of_lt_succ (lostBytes_lt (by omega) _), rfl, rfl⟩

/-- Settles O52: a count short of the length, the trailer left out, disagrees with it. -/
theorem endFrameDoesNotDrain : Obligations.EndFrameDoesNotDrain := by
  refine fun s explen ha hl => ⟨_, exec_endFrame_ok explen ha hl, rfl, fun hshort => ?_⟩
  rw [closeCompletion_size _ _ (by omega)]

end Sys2Proof.Machine

/-! SUPPORT. The error table (spec/60_exceptions.md R201), both ways: each operation's completion has a code of its row,
and each code of a row is the code of a completion in a state given here. -/

namespace Sys2Proof.Machine

/-- An operation that takes from RX lists the transport's two errors, and completes with one when it fails (R201). -/
theorem transportError_code {i : Instr} (h : 0 < rxWidth i) (s : State) :
    (transportError s).code ∈ possibleCodes i := by
  have hrow : ∀ k ∈ [1, 2], k ∈ possibleCodes i := by
    cases i <;> simp_all [rxWidth, possibleCodes]
  refine hrow _ ?_
  rcases transportError_cases s with he | he <;> simp [he, Completion.code]

/-- A read whose bytes arrived completes with a code of its row, `RD.BOOL` alone with a `ParseError` (R201). -/
theorem readCompletion_code {i : Instr} (h : isReader i = true) (b : List Byte) :
    (readCompletion i b).code ∈ possibleCodes i := by
  cases i with
  | rdBool => rcases boolCompletion_cases (beU8 b) with ⟨v, hc⟩ | hc <;>
      simp [readCompletion, hc, Completion.code, possibleCodes]
  | _ => simp_all [isReader, readCompletion, Completion.code, possibleCodes]

/-- What a close reports of a trailer that arrived has a code of its row (R201). -/
theorem closeCompletion_code (explen computed : Half) (n : Word) (b : List Byte) :
    (closeCompletion explen computed n (.ok b)).code ∈ possibleCodes (.endFrame explen) := by
  rcases closeCompletion_cases explen computed n b with ⟨h, -⟩ | ⟨h, -⟩ | ⟨h, -⟩ <;>
    simp [h, Completion.code, possibleCodes]

/-- Every operation completes with a code of its row (R201). -/
theorem exec_code (i : Instr) (s : State) :
    ∃ t x, exec i s = .next t ∧ t.done = s.done ++ [x] ∧ x.code ∈ possibleCodes i := by
  by_cases hr : isReader i = true
  · rcases rx_delivers_or_fails (rxWidth i) s with ⟨ha, hl⟩ | hf
    · exact ⟨_, _, exec_reader_ok hr ha hl, rfl, readCompletion_code hr _⟩
    · exact ⟨_, _, exec_reader_fail hr hf, rfl, transportError_code (rxWidth_pos hr) s⟩
  by_cases hc : isEndFrame i = true
  · obtain ⟨l, rfl⟩ := isEndFrame_iff.1 hc
    rcases rx_delivers_or_fails 2 s with ⟨ha, hl⟩ | hf
    · exact ⟨_, _, exec_endFrame_ok l ha hl, rfl, closeCompletion_code l _ _ _⟩
    · exact ⟨_, _, exec_endFrame_fail l hf, rfl, transportError_code (i := .endFrame l) Nat.two_pos s⟩
  by_cases hw : isWrFrame i = true
  · obtain ⟨cmd, p, rfl⟩ := isWrFrame_iff.1 hw
    by_cases hp : p.length ≤ 65530
    · cases ha : s.nextTx.answer with
      | ok => exact ⟨_, _, exec_wrFrame_ok cmd hp ha, rfl, by simp [Completion.code, possibleCodes]⟩
      | io => exact ⟨_, _, exec_wrFrame_io cmd hp ha, rfl, by simp [Completion.code, possibleCodes]⟩
    · exact ⟨_, _, exec_wrFrame_long cmd (by omega), rfl, by simp [Completion.code, possibleCodes]⟩
  rw [Bool.not_eq_true] at hr hw hc
  rcases engine_cases hr hw hc with ⟨sel, rfl⟩ | ⟨sel, data, rfl⟩ | ⟨sel, rfl⟩
  · cases sel <;> exact ⟨_, _, rfl, rfl, List.mem_singleton.2 rfl⟩
  · cases sel <;> exact ⟨_, _, rfl, rfl, List.mem_singleton.2 rfl⟩
  · exact ⟨_, _, rfl, rfl, List.mem_singleton.2 rfl⟩

/-- Some state in which the operation completes with a code (R201). -/
def CompletesWith (i : Instr) (k : Nat) : Prop :=
  ∃ (s t : State) (x : Completion), exec i s = .next t ∧ t.done = s.done ++ [x] ∧ x.code = k

/-- After reset, the next `RxTake` answered as given, with these bytes on RX. -/
def rxAnswering (a : RxAnswer) (rx : List Byte) : State := { State.reset with rx := rx, rxDraws := [⟨a, 0⟩] }

/-- After reset, the next `TxPut` answered as given. -/
def txAnswering (a : TxAnswer) : State := { State.reset with txDraws := [⟨a, 0⟩] }

theorem rxAnswering_fails {a : RxAnswer} (ha : a ≠ .ok) (n : Nat) :
    (rxAnswering a []).nextRx.answer = .ok → (rxAnswering a []).rx.length < n :=
  fun h => absurd h ha

/-- A read reaches the transport's two errors on a transport that gives them, and `Ok` on zero bytes (R201). -/
theorem reader_completes {i : Instr} (h : isReader i = true) : ∀ k ∈ [0, 1, 2], CompletesWith i k := by
  have hzeros : CompletesWith i 0 := by
    refine ⟨rxAnswering .ok (List.replicate 4 0x00#8), _, _, exec_reader_ok h rfl ?_, rfl, ?_⟩
    · cases i <;> simp [rxWidth, rxAnswering]
    · cases i <;> rfl
  simp only [List.forall_mem_cons]
  exact ⟨hzeros,
    ⟨rxAnswering .timeout [], _, _, exec_reader_fail h (rxAnswering_fails (by decide) _), rfl, rfl⟩,
    ⟨rxAnswering .io [], _, _, exec_reader_fail h (rxAnswering_fails (by decide) _), rfl, rfl⟩, by simp⟩

/-- `RD.BOOL` rejects the byte 2 (R127). -/
theorem rdBool_completes_parseError : CompletesWith .rdBool 3 :=
  ⟨rxAnswering .ok [0x02#8], _, .parseError 0x02#8, rfl, rfl, rfl⟩

/-- A frame accepted, one that the transport fails on, and one too long for its length field (R150 to R153). -/
theorem wrFrame_completes : ∀ k ∈ [0, 2, 6], ∃ p, CompletesWith (.wrFrame 0x00#8 p) k := by
  simp only [List.forall_mem_cons]
  exact ⟨⟨[], txAnswering .ok, _, .ok .none, exec_wrFrame_ok 0x00#8 (Nat.zero_le _) rfl, rfl, rfl⟩,
    ⟨[], txAnswering .io, _, .transportIo, exec_wrFrame_io 0x00#8 (Nat.zero_le _) rfl, rfl, rfl⟩,
    ⟨List.replicate 65531 0x00#8, State.reset, _, _,
      exec_wrFrame_long 0x00#8 (by rw [List.length_replicate]; omega), rfl, rfl⟩, by simp⟩

/-- Closes of the empty count, whose length is 2: accepted with a zero checksum, the transport's errors, a length that
disagrees, and a checksum that does (R154). -/
theorem endFrame_completes : ∀ k ∈ [0, 1, 2, 4, 5], ∃ l, CompletesWith (.endFrame l) k := by
  simp only [List.forall_mem_cons]
  exact ⟨⟨2#16, rxAnswering .ok [0x00#8, 0x00#8], _, .ok .none, rfl, rfl, rfl⟩,
    ⟨2#16, rxAnswering .timeout [], _, _, exec_endFrame_fail _ (rxAnswering_fails (by decide) _), rfl, rfl⟩,
    ⟨2#16, rxAnswering .io [], _, _, exec_endFrame_fail _ (rxAnswering_fails (by decide) _), rfl, rfl⟩,
    ⟨0#16, rxAnswering .ok [0x00#8, 0x00#8], _, .sizeMismatch 0#16 0#32, rfl, rfl, rfl⟩,
    ⟨2#16, rxAnswering .ok [0x00#8, 0x01#8], _, .checksumMismatch 0#16 1#16, rfl, rfl, rfl⟩, by simp⟩

/-- Every code of an operation's row is reached by an operation of that row (R201). -/
theorem possibleCodes_reached (i : Instr) :
    ∀ k ∈ possibleCodes i, ∃ j : Instr, j.mnemonic = i.mnemonic ∧ CompletesWith j k := by
  intro k hk
  cases i with
  | crcInit sel =>
    obtain rfl := List.mem_singleton.1 hk
    exact ⟨.crcInit .rx, rfl, State.reset, _, .ok .none, rfl, rfl, rfl⟩
  | crcUpd sel data =>
    obtain rfl := List.mem_singleton.1 hk
    exact ⟨.crcUpd .rx [], rfl, State.reset, _, .ok .none, rfl, rfl, rfl⟩
  | crcFin sel =>
    obtain rfl := List.mem_singleton.1 hk
    exact ⟨.crcFin .rx, rfl, State.reset, _, .ok (.u16 0x0000#16), rfl, rfl, rfl⟩
  | rdU8 => exact ⟨.rdU8, rfl, reader_completes rfl k hk⟩
  | rdU16 => exact ⟨.rdU16, rfl, reader_completes rfl k hk⟩
  | rdU32 => exact ⟨.rdU32, rfl, reader_completes rfl k hk⟩
  | rdF32 => exact ⟨.rdF32, rfl, reader_completes rfl k hk⟩
  | rdBool =>
    by_cases hk3 : k = 3
    · exact ⟨.rdBool, rfl, hk3 ▸ rdBool_completes_parseError⟩
    · exact ⟨.rdBool, rfl, reader_completes rfl k (by simp_all [possibleCodes])⟩
  | wrFrame cmd p =>
    obtain ⟨q, hq⟩ := wrFrame_completes k hk
    exact ⟨.wrFrame 0x00#8 q, rfl, hq⟩
  | endFrame l =>
    obtain ⟨m, hm⟩ := endFrame_completes k hk
    exact ⟨.endFrame m, rfl, hm⟩

/-- Settles O40: the codes that can occur, and for each a completion that has it. -/
theorem operationsRaiseExactlyTheirErrors : Obligations.OperationsRaiseExactlyTheirErrors := by
  refine ⟨exec_code, fun i k hk => ?_⟩
  obtain ⟨j, hj, s, t, x, ht, hx, hcode⟩ := possibleCodes_reached i k hk
  exact ⟨j, s, t, x, hj, ht, hx, hcode⟩

end Sys2Proof.Machine

/-! SUPPORT. The whole machine and sequences of operations (spec/10_state.md R24, R25; spec/20_memory.md R53, R54;
spec/42_frame_codec.md R151, R162, R163): what a step moves, what a list of reads and writes accumulates, that reads and
closes depend on the read side only, and the reception of a whole frame. -/

namespace Sys2Proof.Machine

/-- Settles O53, by what a step can do: only an operation moves the streams, and it moves them forward. -/
theorem streamsOnlyMoveForward : Obligations.StreamsOnlyMoveForward := by
  intro s t h
  rcases step_cases h with ⟨-, rfl⟩ | ⟨c, i, rest, hp, -, he⟩ | ⟨c, k, rest, hp, -, rfl⟩ | ⟨rest, hp, rfl⟩
  · exact ⟨List.suffix_rfl, List.prefix_rfl, List.prefix_rfl, List.suffix_rfl⟩
  · obtain ⟨⟨x, hdone⟩, hport, ⟨k, hrx⟩, htx⟩ := exec_forward he
    exact ⟨hrx ▸ List.drop_suffix _ _, htx, hdone ▸ List.prefix_append _ _, by simp [hport, hp]⟩
  · exact ⟨List.suffix_rfl, List.prefix_rfl, List.prefix_append _ _, by simp [hp]⟩
  · exact ⟨List.suffix_rfl, List.prefix_rfl, List.prefix_rfl, by simp [hp]⟩

/-- Settles O54: reset is at a boundary, with nothing on the port. -/
theorem frameInvHoldsAtReset : Obligations.FrameInvHoldsAtReset :=
  frameInv_nil_of_atBoundary ⟨rfl, rfl⟩ fun _ he => absurd he List.not_mem_nil

/-- A count of 0 under the invariant means that nothing has been consumed since the boundary (R24). -/
theorem FrameInv.eq_nil {b : List Byte} {s : State} (h : FrameInv b s) (h0 : s.count = 0#32) : b = [] := by
  obtain ⟨-, hcount, -⟩ := h
  simp only [h0, Config.countMax, BitVec.toNat_ofNat] at hcount
  exact List.length_eq_zero_iff.1 (by omega)

/-- Settles O56: the count tells the empty sequence from any other, and the checksum does not tell it from a zero
byte. -/
theorem countZeroIsTheBoundaryTest : Obligations.CountZeroIsTheBoundaryTest := by
  refine ⟨fun b s h h0 => ?_, [0x00#8], { State.reset with count := 1#32 }, ⟨rfl, rfl, ?_⟩, rfl, ?_⟩
  · obtain rfl := h.eq_nil h0
    obtain ⟨hcrc, -⟩ := h
    exact ⟨h0, hcrc⟩
  · exact fun _ he => absurd he List.not_mem_nil
  · exact fun ⟨h1, _⟩ => absurd h1 (by decide)

/-- A list of operations without closes and without those that bypass the counter folds and counts exactly the bytes
consumed (R25). -/
theorem execAll_accumulates_consumed {ops : List Instr} {s t : State}
    (h : ∀ i ∈ ops, isEndFrame i = false ∧ bypassesCounter i = false) (he : execAll ops s = .next t) :
    t.crcRx = crcUpdate s.crcRx (consumedBytes ops s) ∧ t.count = satAdd s.count (consumedBytes ops s).length := by
  induction ops generalizing s with
  | nil => cases he; simp [consumedBytes]
  | cons i is ih =>
    obtain ⟨u, hu⟩ := exec_next i s
    obtain ⟨hc, hb⟩ := h i List.mem_cons_self
    obtain ⟨hcrc, hcount⟩ := exec_accumulates_consumed hc hb hu
    obtain ⟨hcrc', hcount'⟩ := ih (fun j hj => h j (List.mem_cons_of_mem i hj)) ((execAll_cons hu is).symm.trans he)
    simp only [consumedBytes, hu]
    rw [crcUpdate_append, List.length_append, ← satAdd_satAdd, ← hcrc, ← hcount]
    exact ⟨hcrc', hcount'⟩

/-- Reads and writes neither close nor bypass the counter. -/
theorem no_close_no_bypass {i : Instr} (h : isReader i = true ∨ isWrFrame i = true) :
    isEndFrame i = false ∧ bypassesCounter i = false := by
  cases i <;> simp_all [isReader, isWrFrame, isEndFrame, bypassesCounter]

/-- Settles O57: at the boundary the fold begins with 0 and the count with 0. -/
theorem readsAccumulateExactlyTheConsumedBytes : Obligations.ReadsAccumulateExactlyTheConsumedBytes := by
  rintro ops s ⟨hcount0, hcrc0⟩ h
  obtain ⟨t, ht⟩ := execAll_next ops s
  obtain ⟨hcrc, hcount⟩ := execAll_accumulates_consumed (fun i hi => no_close_no_bypass (h i hi)) ht
  refine ⟨t, ht, hcrc0 ▸ hcrc, ?_⟩
  rw [hcount, satAdd_toNat, hcount0]
  simp

/-- The error of a failed `RxTake` depends on the transport's answer only. -/
theorem transportError_congr {s t : State} (h : s.nextRx = t.nextRx) : transportError s = transportError t := by
  rw [transportError, transportError, h]

/-- A read or a close does the same to two states with the same read side, and completes the same (R54, R151). -/
theorem exec_sameReadSide {i : Instr} {s w : State} (h : isReader i = true ∨ isEndFrame i = true)
    (hsame : sameReadSide w s) :
    ∃ t u x, exec i s = .next t ∧ exec i w = .next u ∧ sameReadSide u t ∧ t.done = s.done ++ [x] ∧
      u.done = w.done ++ [x] := by
  obtain ⟨hcrc, hcount, hrx, hdraws, hfree⟩ := hsame
  obtain ⟨hnext, hdraws', hfree'⟩ := nextRx_congr hdraws hfree
  rcases h with hr | hc
  · rcases rx_delivers_or_fails (rxWidth i) s with ⟨ha, hl⟩ | hf
    · refine ⟨_, _, _, exec_reader_ok hr ha hl, exec_reader_ok hr (hnext ▸ ha) (hrx ▸ hl), ?_, rfl, by rw [hrx]⟩
      exact ⟨by rw [hcrc, hrx], by rw [hcount], by rw [hrx], hdraws', hfree'⟩
    · refine ⟨_, _, _, exec_reader_fail hr hf, exec_reader_fail hr (hnext ▸ hrx ▸ hf), ?_, rfl,
        by rw [transportError_congr hnext]⟩
      exact ⟨hcrc, hcount, by rw [hrx, hnext], hdraws', hfree'⟩
  · obtain ⟨l, rfl⟩ := isEndFrame_iff.1 hc
    rcases rx_delivers_or_fails 2 s with ⟨ha, hl⟩ | hf
    · refine ⟨_, _, _, exec_endFrame_ok l ha hl, exec_endFrame_ok l (hnext ▸ ha) (hrx ▸ hl), ?_, rfl,
        by rw [hcrc, hcount, hrx]⟩
      exact ⟨rfl, rfl, by rw [hrx], hdraws', hfree'⟩
    · refine ⟨_, _, _, exec_endFrame_fail l hf, exec_endFrame_fail l (hnext ▸ hrx ▸ hf), ?_, rfl,
        by rw [transportError_congr hnext]⟩
      exact ⟨rfl, rfl, by rw [hrx, hnext], hdraws', hfree'⟩

/-- A list of reads and closes does the same to two states with the same read side (R54, R151). -/
theorem execAll_sameReadSide {ops : List Instr} {s w : State}
    (h : ∀ i ∈ ops, isReader i = true ∨ isEndFrame i = true) (hsame : sameReadSide w s) :
    ∃ t u cs, execAll ops s = .next t ∧ execAll ops w = .next u ∧ sameReadSide u t ∧ t.done = s.done ++ cs ∧
      u.done = w.done ++ cs := by
  induction ops generalizing s w with
  | nil => exact ⟨s, w, [], rfl, rfl, hsame, by simp, by simp⟩
  | cons i is ih =>
    obtain ⟨s', w', x, hs, hw, hsame', hdone, hdone'⟩ := exec_sameReadSide (h i List.mem_cons_self) hsame
    obtain ⟨t, u, cs, ht, hu, hend, hcs, hcs'⟩ := ih (fun j hj => h j (List.mem_cons_of_mem i hj)) hsame'
    exact ⟨t, u, x :: cs, (execAll_cons hs is).trans ht, (execAll_cons hw is).trans hu, hend,
      by simp [hcs, hdone], by simp [hcs', hdone']⟩

/-- Settles O58: the frame written leaves the read side, which is all that the reads and the closes depend on. -/
theorem writingInMidFrameDisturbsNoRead : Obligations.WritingInMidFrameDisturbsNoRead := by
  intro ops s cmd p h
  obtain ⟨w, hw⟩ := exec_next (.wrFrame cmd p) s
  obtain ⟨hsame, -⟩ := exec_wrFrame_registers hw
  obtain ⟨t, u, cs, ht, hu, hend, hcs, hcs'⟩ := execAll_sameReadSide h hsame
  exact ⟨t, w, u, cs, ht, hw, hu, hend, hcs, hcs'⟩

/-- The canonical receive sequence on a whole frame, exactly: the reads take the body and the close accepts the trailer
(R162). -/
theorem receive_frame {s : State} {cmd : Byte} {p rest : List Byte} {reads : List Instr} (hb : atBoundary s)
    (hp : p.length ≤ 65530) (hrx : s.rx = frameBytes cmd p ++ rest) (hr : ∀ i ∈ reads, isReader i = true)
    (hsum : (reads.map rxWidth).sum = p.length) (hok : rxOk (reads.length + 3) s) :
    ∃ t, execAll (receive reads (BitVec.ofNat 16 (p.length + 5))) s = .next t ∧
      t = { s with
        rxDraws := t.rxDraws, rxFree := t.rxFree,
        rx := rest, crcRx := 0x0000#16, count := 0#32,
        done := s.done ++ readCompletions ([.rdU16, .rdU8] ++ reads) (frameBody cmd p) ++ [.ok .none] } := by
  obtain ⟨hcount, hcrc⟩ := hb
  have hcalls : ([Instr.rdU16, .rdU8] ++ reads).length + 1 = reads.length + 3 := by simp
  have hfield : (BitVec.ofNat 16 (p.length + 5)).toNat = p.length + 5 := frameLength_field p hp
  obtain ⟨u, hu, hread, ha, -⟩ := execAll_reads (is := [.rdU16, .rdU8] ++ reads) (b := frameBody cmd p) (k := 1)
    (rest := beBytes16 (checksum (frameBody cmd p)) ++ rest) (s := s)
    (by simpa [isReader] using hr) (by rw [hrx, frameBytes, List.append_assoc])
    (by simp [rxWidth, hsum]; omega) (hcalls ▸ hok)
  have hclose : exec (.endFrame (BitVec.ofNat 16 (p.length + 5))) u = _ :=
    endFrameAcceptsAMatchingFrame u _ rest ha (by rw [hread, hcrc]; rfl) (by
      rw [hread, hcount, satAdd_toNat, frameBody_length, hfield, BitVec.toNat_ofNat]
      omega)
  refine ⟨_, (execAll_append hu _).trans (by rw [execAll_singleton, hclose]), ?_⟩
  rw [hread]

/-- Settles O59, by the exact state in which the reception ends. -/
theorem canonicalReceiveClosesOk : Obligations.CanonicalReceiveClosesOk := by
  intro s cmd p rest reads hb hp hrx hr hsum hok
  obtain ⟨t, ht, heq⟩ := receive_frame hb hp hrx hr hsum hok
  refine ⟨t, ht, ?_⟩
  rw [heq]
  exact ⟨⟨rfl, rfl⟩, rfl, by simp⟩

/-- Bytes read one by one complete with themselves (R123). -/
theorem readCompletions_bytes (p : List Byte) :
    readCompletions (List.replicate p.length .rdU8) p = p.map fun b => .ok (.u8 b) := by
  induction p with
  | nil => rfl
  | cons b p ih => simpa [List.replicate_succ, readCompletions, rxWidth, readCompletion] using ih

/-- A frame's body read as length, command and payload bytes gives these back (R163). -/
theorem readCompletions_frameBody (cmd : Byte) (p : List Byte) :
    readCompletions ([.rdU16, .rdU8] ++ List.replicate p.length .rdU8) (frameBody cmd p) =
      [.ok (.u16 (BitVec.ofNat 16 (p.length + 5))), .ok (.u8 cmd)] ++ p.map fun b => .ok (.u8 b) := by
  rw [← readCompletions_bytes p]
  simp [readCompletions, rxWidth, readCompletion, frameBody, frameLength, Config.frameOverhead]

/-- Settles O60: what `WR.FRAME` put is the frame, and reading its body byte by byte gives the values back. -/
theorem frameSymmetry : Obligations.FrameSymmetry := by
  intro s w r cmd p emitted rest hp ha hw htx hb hrx hok
  rw [exec_wrFrame_ok cmd hp ha] at hw
  cases hw
  obtain rfl := List.append_cancel_left htx
  obtain ⟨t, ht, heq⟩ := receive_frame (reads := List.replicate p.length .rdU8) hb hp hrx
    (by simp +contextual [List.mem_replicate, isReader]) (by simp [rxWidth]) (by simpa using hok)
  refine ⟨t, ht, ?_⟩
  rw [heq, readCompletions_frameBody]
  exact ⟨by simp, ⟨rfl, rfl⟩, rfl, rfl, rfl⟩

end Sys2Proof.Machine
